-- ==== Sys2Proof/Word.lean ====
section
/-! DEFINITION. The word types (00_scope.md R10), the addressing modes (30_encoding.md R154) and the operand forms with the data
each one carries (R153). -/

namespace Sys2Proof

/-- A `u8` of R10: every register but PC, and every memory byte. -/
abbrev Byte := BitVec 8

/-- A `u16` of R10: PC and every CPU address. -/
abbrev Word := BitVec 16

/-- The `format` column of the opcode table. The source's NoneAddressing is split into `implied`, `accumulator` and
`relative` (R154). -/
inductive Mode where
  | implied
  | accumulator
  | immediate
  | zeroPage
  | zeroPageX
  | zeroPageY
  | absolute
  | absoluteX
  | absoluteY
  | indirectX
  | indirectY
  | indirectJmp
  | relative
  deriving DecidableEq, Repr

/-- How many operand bytes follow the opcode byte (R151, R153). -/
def Mode.operandBytes : Mode → Nat
  | .implied | .accumulator => 0
  | .immediate | .zeroPage | .zeroPageX | .zeroPageY | .indirectX | .indirectY | .relative => 1
  | .absolute | .absoluteX | .absoluteY | .indirectJmp => 2

/-- The operand of an instruction that has several addressing modes, with the operand bytes assembled as R153 says: a byte
is the immediate, the zero-page address or the zero-page pointer; a word is the little-endian `w16(b2, b1)`. -/
inductive Operand where
  | acc
  | imm (b : Byte)
  | zp (z : Byte)
  | zpX (z : Byte)
  | zpY (z : Byte)
  | abs (w : Word)
  | absX (w : Word)
  | absY (w : Word)
  | indX (z : Byte)
  | indY (z : Byte)
  deriving DecidableEq, Repr

/-- The addressing mode of an operand form. -/
def Operand.mode : Operand → Mode
  | .acc => .accumulator
  | .imm _ => .immediate
  | .zp _ => .zeroPage
  | .zpX _ => .zeroPageX
  | .zpY _ => .zeroPageY
  | .abs _ => .absolute
  | .absX _ => .absoluteX
  | .absY _ => .absoluteY
  | .indX _ => .indirectX
  | .indY _ => .indirectY

end Sys2Proof
end

