-- ==== Sys2Proof/Config.lean ====
section
/-! DEFINITION. What an implementation fixes: the parameters of 00_scope.md R8 as one record of plain data (held in the state, so
that a statement holds for every setting; log 4), with the spec's defaults; and the free values of the spec (its draws and
oracles, R14), each an opaque constant applied to a counter of the state or to what the value depends on. -/

namespace Sys2Proof

/-- `JAM_POLICY` (46_undocumented.md R420). -/
inductive JamPolicy where
  | jam
  | nop
  deriving DecidableEq, Repr

/-- `UNSTABLE_STORE` (46_undocumented.md R421). -/
inductive UnstableStore where
  | formula
  | any
  deriving DecidableEq, Repr

/-- `WO_READ_POLICY` (60_exceptions.md R485). -/
inductive WriteOnlyRead where
  | fault
  | any
  deriving DecidableEq, Repr

/-- `STATUS_WRITE_POLICY` (60_exceptions.md R487) and `CHR_WRITE_POLICY` (20_memory.md R118). -/
inductive WritePolicy where
  | fault
  | ignore
  deriving DecidableEq, Repr

/-- `STATUS_LOW_BITS` (60_exceptions.md R481). -/
inductive LowBits where
  | zero
  | any
  deriving DecidableEq, Repr

/-- `SPRITE0_SOURCE` and `OVERFLOW_SOURCE` (60_exceptions.md R473, R474). -/
inductive OracleSource where
  | never
  | oracle
  deriving DecidableEq, Repr

/-- The parameters of R8 that a running machine reads. `PRG_SIZE` and `MIRRORING` come with the cartridge and `INIT_MEM` is an
argument of construction. -/
structure Params where
  nmiCycles : Nat
  dmaCycles : Nat
  resetSP : Byte
  resetP : Byte
  jamPolicy : JamPolicy
  aneMagic : Byte
  lxaMagic : Byte
  unstableStore : UnstableStore
  woRead : WriteOnlyRead
  statusWrite : WritePolicy
  chrWrite : WritePolicy
  sharedW : Bool
  statusLowBits : LowBits
  sprite0Source : OracleSource
  overflowSource : OracleSource
  deriving DecidableEq, Repr

/-- The defaults of R8. -/
def Params.default : Params where
  nmiCycles := 7
  dmaCycles := 513
  resetSP := 0x00
  resetP := 0x00
  jamPolicy := .jam
  aneMagic := 0xFF
  lxaMagic := 0xFF
  unstableStore := .formula
  woRead := .fault
  statusWrite := .fault
  chrWrite := .fault
  sharedW := false
  statusLowBits := .zero
  sprite0Source := .oracle
  overflowSource := .oracle

/-- A code of the input device's state, which is outside the block (10_state.md R53; log 23). -/
abbrev InputDevice := Nat

/-- A code of the per-frame handler the host supplies at construction (60_exceptions.md R502; log 13). -/
abbrev FrameHandler := Nat

/-- Free value: the byte the input device, in this state, answers to the read with this index (20_memory.md R87; log 7). -/
opaque Config.inputByte : InputDevice → Nat → Byte

/-- Free value: the state of the input device after `InputWrite` of a byte in this state (20_memory.md R87; log 8). -/
opaque Config.inputAfterWrite : InputDevice → Byte → InputDevice

/-- Free value: the byte a read of a write-only PPU register returns under `WO_READ_POLICY = any` (60_exceptions.md R485; log 10). -/
opaque Config.writeOnlyByte : Nat → Byte

/-- Free value: bits 4 to 0 of a status read under `STATUS_LOW_BITS = any` (60_exceptions.md R481; log 10). -/
opaque Config.statusLow : Nat → BitVec 5

/-- Free value: the byte an unstable store writes under `UNSTABLE_STORE = any` (46_undocumented.md R421; log 10). -/
opaque Config.unstableByte : Nat → Byte

/-- Free value: whether the renderer sets sprite-zero hit after the visible dot with this index (60_exceptions.md R473; log 9). -/
opaque Config.spriteZeroHit : Nat → Bool

/-- Free value: whether the renderer sets sprite overflow after the visible dot with this index (60_exceptions.md R474; log 9). -/
opaque Config.spriteOverflow : Nat → Bool

end Sys2Proof
end

