-- ==== Sys2Proof/Machine/State.lean ====
section
/-! DEFINITION. The state of the block as plain data (10_state.md): CPU, bus and PPU, the cartridge's ROMs and the parameters; the
fault reasons of 60_exceptions.md R430; and the state after reset. -/

namespace Sys2Proof.Machine

/-- A memory: (index, byte) cells, indexes strictly rising, no cell holding 0x00; an index without a cell reads 0x00 (log 3). -/
abbrev Memory := List Host.Cell

/-- `P` as its eight stored flags (R35): bit 0 `c`, 1 `z`, 2 `i`, 3 `d`, 4 `b`, 5 `u`, 6 `v`, 7 `n`. -/
structure Flags where
  c : Bool
  z : Bool
  i : Bool
  d : Bool
  b : Bool
  u : Bool
  v : Bool
  n : Bool
  deriving DecidableEq, Repr

/-- The `space` of a ROMWriteAttempt (60_exceptions.md R430). -/
inductive RomSpace where
  | cpu
  | chr
  deriving DecidableEq, Repr

/-- The fault kinds of R430 with the info fields of each kind. -/
inductive FaultCause where
  /-- Raised by `fetchInstr` for an opcode byte without a row: never, every byte has one (R432). Safe. -/
  | unknownOpcode
  /-- Raised by `effAddr` for an operand form that has no effective address: never for a well-formed instruction (R433,
  40_addressing.md R172; log 17). Safe. -/
  | invalidAddressingModeUse (mode : Mode)
  /-- Raised by `memWrite` for a CPU write to 0x8000 to 0xFFFF (20_memory.md R90) and for a PPU data write to CHR under
  `CHR_WRITE_POLICY = fault` (R118). The spec's own fault. Safe. -/
  | romWriteAttempt (space : RomSpace) (addr : Word) (value : Byte)
  /-- Raised by `memRead` for a write-only PPU register under `WO_READ_POLICY = fault` (R485). The spec's own fault. Safe. -/
  | ppuWriteOnlyRead (addr : Word)
  /-- Raised by `memWrite` for PPU status under `STATUS_WRITE_POLICY = fault` (R487). The spec's own fault. Safe. -/
  | ppuStatusWrite (addr : Word) (value : Byte)
  deriving DecidableEq, Repr

/-- `Fault(kind, info)` of R430: the kind with its own fields, the address of the instruction's opcode byte and that byte, or
none where it has not been fetched. -/
structure FaultInfo where
  cause : FaultCause
  opAddr : Word
  opcode : Option Byte
  deriving DecidableEq, Repr

/-- `cpu_run` (R46). -/
inductive RunState where
  | running
  | halted
  | jammed
  | faulted (info : FaultInfo)
  deriving DecidableEq, Repr

/-- What a step keeps only while it runs: `cyc` (R47) and the `op_addr` and `opcode` of a fault's info (60_exceptions.md R430).
Between steps it is `StepCtx.idle` (log 12). -/
structure StepCtx where
  cyc : Nat
  opAddr : Word
  opcode : Option Byte
  deriving DecidableEq, Repr

/-- The step context between steps. -/
def StepCtx.idle : StepCtx where
  cyc := 0
  opAddr := 0
  opcode := none

/-- The nametable-mirroring mode (R60). -/
inductive Mirroring where
  | vertical
  | horizontal
  | fourScreen
  deriving DecidableEq, Repr

/-- `PRG_SIZE` (00_scope.md R8, R51): 16,384 or 32,768 bytes. -/
inductive PrgSize where
  | k16
  | k32
  deriving DecidableEq, Repr

/-- The PPU (R60 to R73). `status` is held as its three stored bits (R66; log 16); `v` is 14 bits wide (R69). -/
structure Ppu where
  /-- CHR ROM (R60). -/
  chr : Memory
  /-- R60. -/
  mirroring : Mirroring
  /-- R61. -/
  vram : Memory
  /-- R62. -/
  palette : Memory
  /-- R63. -/
  oam : Memory
  /-- R64. -/
  ctrl : Byte
  /-- R65. -/
  mask : Byte
  /-- `status[7]`, vblank-started (R66). -/
  vblank : Bool
  /-- `status[6]`, sprite-zero hit (R66). -/
  spriteZero : Bool
  /-- `status[5]`, sprite overflow (R66). -/
  overflow : Bool
  /-- R67. -/
  oamAddr : Byte
  /-- R68. -/
  scrollX : Byte
  /-- R68. -/
  scrollY : Byte
  /-- R68: false, the next scroll write is horizontal; true, vertical. Unused under `SHARED_W_TOGGLE` (log 14). -/
  scrollW : Bool
  /-- R69. -/
  v : BitVec 14
  /-- R69: false, the next address write sets the high byte; true, the low byte. -/
  addrW : Bool
  /-- R70. -/
  readBuf : Byte
  /-- R71. -/
  scanline : Nat
  /-- R72. -/
  dot : Nat
  /-- R73. -/
  nmiPending : Bool
  /-- The model's own: the index of the renderer oracle's next answer (log 11). -/
  oracleIndex : Nat
  deriving DecidableEq, Repr

end Sys2Proof.Machine

namespace Sys2Proof

/-- Free value: the state in which this handler, called with this snapshot of the PPU for the frame event with this index, leaves the
input device it finds in this state (60_exceptions.md R502; log 13). It stands here because its snapshot is a `Ppu`. -/
opaque Config.onFrame : FrameHandler → Nat → Machine.Ppu → InputDevice → InputDevice

end Sys2Proof

namespace Sys2Proof.Machine

/-- The state of the block (10_state.md). -/
structure State where
  /-- R30. -/
  a : Byte
  /-- R31. -/
  x : Byte
  /-- R32. -/
  y : Byte
  /-- R33. -/
  sp : Byte
  /-- R34. -/
  pc : Word
  /-- R35 to R43. -/
  p : Flags
  /-- R46. -/
  cpuRun : RunState
  /-- R47 and the info of R430. -/
  ctx : StepCtx
  /-- Work RAM (R50). -/
  ram : Memory
  /-- PRG ROM (R51). -/
  prg : Memory
  /-- `PRG_SIZE` (R51). -/
  prgSize : PrgSize
  /-- R52. -/
  busCycles : Nat
  /-- R60 to R73. -/
  ppu : Ppu
  /-- The parameters of 00_scope.md R8. -/
  params : Params
  /-- The state of the input device behind 0x4016, as a code: it changes only at frame events and by `InputWrite` (R53,
  92_eei_decisions.md D35; log 23). -/
  input : InputDevice
  /-- The per-frame handler the host supplied at construction, as a code (60_exceptions.md R502; log 13). -/
  handler : FrameHandler
  /-- The model's own: the bytes delivered to the input device by `InputWrite`, newest first (20_memory.md R87; log 8). -/
  inputWrites : List Byte
  /-- The model's own: how many frame events were raised (60_exceptions.md R468; log 13). -/
  frameEvents : Nat
  /-- The model's own: the index of the next free value of a bus access (log 11). -/
  draws : Nat
  deriving DecidableEq, Repr

/-- How the machine stops. -/
inductive Fault where
  /-- A step, or a part of one, ended with a fault of R430: `info` says which and why, `left` is the state R431 leaves, with every
  effect before the faulting access kept and `cpu_run = Faulted`. Raised by `fetchInstr`, `effAddr`, `memRead` and `memWrite`
  as the constructors of `FaultCause` say, and by `step` again in a state that is already Faulted. Safe: these are the spec's own
  faults, or unreachable (log 5). -/
  | stopped (info : FaultInfo) (left : State)
  deriving DecidableEq, Repr

/-- Why an instruction has no meaning in the model. -/
inductive Refusal where
  /-- Raised by an arm of `exec` whose instruction has no meaning yet: no arm does. Safe. -/
  | notModelled (mnemonic : String)
  deriving DecidableEq, Repr

/-- The parameters' defaults, the cartridge of log 1, and every item of R79 at its value at construction. The PPU part. -/
def Ppu.reset : Ppu where
  chr := []
  mirroring := .vertical
  vram := []
  palette := []
  oam := []
  ctrl := 0x00
  mask := 0x00
  vblank := false
  spriteZero := false
  overflow := false
  oamAddr := 0x00
  scrollX := 0x00
  scrollY := 0x00
  scrollW := false
  v := 0
  addrW := false
  readBuf := 0x00
  scanline := 0
  dot := 0
  nmiPending := false
  oracleIndex := 0

/-- The machine right after construction and its reset (R79, 70_reset_and_hazards.md R535), with the cartridge of log 1 and the
memory contents of log 3. PC is the reset vector of an all-zero PRG. -/
def State.reset : State where
  a := 0x00
  x := 0x00
  y := 0x00
  sp := 0x00
  pc := 0x0000
  p := ⟨false, false, false, false, false, false, false, false⟩
  cpuRun := .running
  ctx := StepCtx.idle
  ram := []
  prg := []
  prgSize := .k16
  busCycles := 0
  ppu := Ppu.reset
  params := Params.default
  input := 0
  handler := 0
  inputWrites := []
  frameEvents := 0
  draws := 0

end Sys2Proof.Machine
end

