-- ==== Sys2Proof/Machine/Flags.lean ====
section
/-! DEFINITION. P as a byte, and every flag computation: the ALU cores (42_arithmetic_logic.md), the shift cores
(43_shift_rotate.md) and the special flags of ANC and ARR (46_undocumented.md). -/

namespace Sys2Proof.Machine

/-- P as a byte, `N<<7 | V<<6 | U<<5 | B<<4 | D<<3 | I<<2 | Z<<1 | C` (10_state.md R35). -/
def Flags.toByte (f : Flags) : Byte :=
  BitVec.ofNat 8 (f.n.toNat * 128 + f.v.toNat * 64 + f.u.toNat * 32 + f.b.toNat * 16 + f.d.toNat * 8 + f.i.toNat * 4
    + f.z.toNat * 2 + f.c.toNat)

/-- The flags of a byte (10_state.md R35). -/
def Flags.ofByte (v : Byte) : Flags where
  c := v.getLsbD 0
  z := v.getLsbD 1
  i := v.getLsbD 2
  d := v.getLsbD 3
  b := v.getLsbD 4
  u := v.getLsbD 5
  v := v.getLsbD 6
  n := v.getLsbD 7

/-- The byte PHP pushes: `P | 0x30` (45_stack_flags_misc.md R344). -/
def Flags.phpByte (f : Flags) : Byte := f.toByte ||| 0x30

/-- The byte NMI entry pushes: `(P & 0xEF) | 0x20` (60_exceptions.md R454). -/
def Flags.nmiByte (f : Flags) : Byte := (f.toByte &&& 0xEF) ||| 0x20

/-- What PLP and RTI make of a popped byte: `(p & 0xEF) | 0x20` (44_control_flow.md R314, 45_stack_flags_misc.md R346). -/
def Flags.popped (v : Byte) : Flags := Flags.ofByte ((v &&& 0xEF) ||| 0x20)

/-- `SetNZ(v)` (42_arithmetic_logic.md R230). -/
def Flags.setNZ (f : Flags) (v : Byte) : Flags := { f with z := v == 0, n := v.getLsbD 7 }

/-- The carry flag written. -/
def Flags.setC (f : Flags) (c : Bool) : Flags := { f with c := c }

/-- The overflow flag written. -/
def Flags.setV (f : Flags) (v : Bool) : Flags := { f with v := v }

/-- `AddCore(a, m, cin)` (42_arithmetic_logic.md R231): result, carry, overflow. -/
def addCore (a m : Byte) (cin : Bool) : Byte × Bool × Bool :=
  let t := a.toNat + m.toNat + cin.toNat
  let r := BitVec.ofNat 8 t
  (r, decide (t > 255), ((a ^^^ r) &&& (m ^^^ r) &&& 0x80) != 0)

/-- `SubCore(a, m, cin)` (42_arithmetic_logic.md R232). -/
def subCore (a m : Byte) (cin : Bool) : Byte × Bool × Bool := addCore a (~~~m) cin

/-- The flags of an add or subtract: C and V from the core, N and Z from the result (R234, R235). -/
def Flags.setArith (f : Flags) (r : Byte × Bool × Bool) : Flags := ((f.setC r.2.1).setV r.2.2).setNZ r.1

/-- `Compare(r, m)` (42_arithmetic_logic.md R233). -/
def Flags.compare (f : Flags) (r m : Byte) : Flags := (f.setC (decide (m.toNat ≤ r.toNat))).setNZ (r - m)

/-- The flags of BIT (42_arithmetic_logic.md R242). -/
def Flags.bitTest (f : Flags) (a m : Byte) : Flags :=
  { f with z := (a &&& m) == 0, n := m.getLsbD 7, v := m.getLsbD 6 }

/-- `ASLf` (43_shift_rotate.md R280). -/
def aslCore (v : Byte) : Byte × Bool := (v <<< 1, v.getLsbD 7)

/-- `LSRf` (R280). -/
def lsrCore (v : Byte) : Byte × Bool := (v >>> 1, v.getLsbD 0)

/-- A carry bit as a byte. -/
def carryByte (c : Bool) : Byte := if c then 1 else 0

/-- `ROLf` (R280). -/
def rolCore (v : Byte) (cin : Bool) : Byte × Bool := ((v <<< 1) ||| carryByte cin, v.getLsbD 7)

/-- `RORf` (R280): the carry enters bit 7 (92_eei_decisions.md D39). -/
def rorCore (v : Byte) (cin : Bool) : Byte × Bool := ((v >>> 1) ||| (carryByte cin <<< 7), v.getLsbD 0)

/-- The flags of a shift: `P.C <- c; SetNZ(r)` (R280). -/
def Flags.setShift (f : Flags) (r : Byte × Bool) : Flags := (f.setC r.2).setNZ r.1

/-- The flags of ANC: N and Z of the result, C a copy of its bit 7 (46_undocumented.md R379). -/
def Flags.setAnc (f : Flags) (r : Byte) : Flags := (f.setNZ r).setC (r.getLsbD 7)

/-- The result of ARR: the masked byte rotated right through the old carry (46_undocumented.md R381). -/
def arrResult (t : Byte) (cin : Bool) : Byte := (t >>> 1) ||| (carryByte cin <<< 7)

/-- The flags of ARR: N and Z of the result, C its bit 6, V its bit 6 xor bit 5 (R381). -/
def Flags.setArr (f : Flags) (r : Byte) : Flags :=
  ((f.setNZ r).setC (r.getLsbD 6)).setV (Bool.xor (r.getLsbD 6) (r.getLsbD 5))

end Sys2Proof.Machine
end

