-- ==== Sys2Proof/Syntax.lean ====
section
/-! DEFINITION. The instructions. One constructor per instruction rule of files 41 to 46; the rows of spec/opcode_table.json with one
mnemonic and one rule differ only in the operand form `o` or, where several opcode bytes mean the same, in the opcode byte `code`
the instruction carries. So every one of the 256 rows is exactly one well-formed shape (log 18). -/

namespace Sys2Proof

/-- An instruction with its operand. `off` is the signed byte of a branch, `imm` an immediate, `target` and `ptr` a jump address,
`base` the address before indexing of an instruction whose one mode is Absolute-X or Absolute-Y. -/
inductive Instr where
  -- 41_load_store_transfer.md
  /-- LDA, R200. -/
  | lda (o : Operand)
  /-- LDX, R201. -/
  | ldx (o : Operand)
  /-- LDY, R202. -/
  | ldy (o : Operand)
  /-- STA, R203. -/
  | sta (o : Operand)
  /-- STX, R204. -/
  | stx (o : Operand)
  /-- STY, R205. -/
  | sty (o : Operand)
  /-- TAX, R206. -/
  | tax
  /-- TAY, R207. -/
  | tay
  /-- TXA, R208. -/
  | txa
  /-- TYA, R209. -/
  | tya
  /-- TSX, R210. -/
  | tsx
  /-- TXS, R211. -/
  | txs
  -- 42_arithmetic_logic.md
  /-- ADC, R234. -/
  | adc (o : Operand)
  /-- SBC, R235. -/
  | sbc (o : Operand)
  /-- AND, R236. -/
  | and (o : Operand)
  /-- ORA, R237. -/
  | ora (o : Operand)
  /-- EOR, R238. -/
  | eor (o : Operand)
  /-- CMP, R239. -/
  | cmp (o : Operand)
  /-- CPX, R240. -/
  | cpx (o : Operand)
  /-- CPY, R241. -/
  | cpy (o : Operand)
  /-- BIT, R242. -/
  | bit (o : Operand)
  /-- INC, R243. -/
  | inc (o : Operand)
  /-- DEC, R244. -/
  | dec (o : Operand)
  /-- INX, R245. -/
  | inx
  /-- INY, R246. -/
  | iny
  /-- DEX, R247. -/
  | dex
  /-- DEY, R248. -/
  | dey
  -- 43_shift_rotate.md
  /-- ASL, R281. -/
  | asl (o : Operand)
  /-- LSR, R282. -/
  | lsr (o : Operand)
  /-- ROL, R283. -/
  | rol (o : Operand)
  /-- ROR, R284. -/
  | ror (o : Operand)
  -- 44_control_flow.md
  /-- BCC, R301. -/
  | bcc (off : Byte)
  /-- BCS, R302. -/
  | bcs (off : Byte)
  /-- BEQ, R303. -/
  | beq (off : Byte)
  /-- BNE, R304. -/
  | bne (off : Byte)
  /-- BMI, R305. -/
  | bmi (off : Byte)
  /-- BPL, R306. -/
  | bpl (off : Byte)
  /-- BVC, R307. -/
  | bvc (off : Byte)
  /-- BVS, R308. -/
  | bvs (off : Byte)
  /-- JMP, R310. -/
  | jmp (target : Word)
  /-- JMP, R311. -/
  | jmpInd (ptr : Word)
  /-- JSR, R312. -/
  | jsr (target : Word)
  /-- RTS, R313. -/
  | rts
  /-- RTI, R314. -/
  | rti
  /-- BRK, R330. -/
  | brk
  -- 45_stack_flags_misc.md
  /-- PHA, R343. -/
  | pha
  /-- PHP, R344. -/
  | php
  /-- PLA, R345. -/
  | pla
  /-- PLP, R346. -/
  | plp
  /-- CLC, R347. -/
  | clc
  /-- CLD, R348. -/
  | cld
  /-- CLI, R349. -/
  | cli
  /-- CLV, R350. -/
  | clv
  /-- SEC, R351. -/
  | sec
  /-- SED, R352. -/
  | sed
  /-- SEI, R353. -/
  | sei
  /-- NOP, R354. -/
  | nop
  -- 46_undocumented.md
  /-- SLO, R371. -/
  | slo (o : Operand)
  /-- RLA, R372. -/
  | rla (o : Operand)
  /-- SRE, R373. -/
  | sre (o : Operand)
  /-- RRA, R374. -/
  | rra (o : Operand)
  /-- SAX, R375. -/
  | sax (o : Operand)
  /-- LAX, R376. -/
  | lax (o : Operand)
  /-- DCP, R377. -/
  | dcp (o : Operand)
  /-- ISB, R378. -/
  | isb (o : Operand)
  /-- ANC, R379. -/
  | anc (code : Byte) (imm : Byte)
  /-- ALR, R380. -/
  | alr (imm : Byte)
  /-- ARR, R381. -/
  | arr (imm : Byte)
  /-- AXS, R382. -/
  | axs (imm : Byte)
  /-- SBC, R383. -/
  | sbcEB (imm : Byte)
  /-- LAS, R384. -/
  | las (base : Word)
  /-- XAA, R385. -/
  | xaa (imm : Byte)
  /-- LXA, R386. -/
  | lxa (imm : Byte)
  /-- AHX, R387. -/
  | ahx (o : Operand)
  /-- SHX, R388. -/
  | shx (base : Word)
  /-- SHY, R389. -/
  | shy (base : Word)
  /-- TAS, R390. -/
  | tas (base : Word)
  /-- NOP, R391. -/
  | nopImmediate (code : Byte) (imm : Byte)
  /-- NOP, R392. -/
  | nopMemory (code : Byte) (o : Operand)
  /-- NOP, R393. -/
  | nopImplied (code : Byte)
  /-- JAM, R420. -/
  | jam (code : Byte)
  deriving DecidableEq, Repr

end Sys2Proof
end

