-- ==== Sys2Proof/WellFormed.lean ====
section
/-! DEFINITION. Which instructions are rows of the opcode table: the addressing modes that 30_encoding.md R156 gives each mnemonic,
and the opcode bytes of the instructions that have several for one meaning. -/

namespace Sys2Proof

/-- LDA, ADC, SBC, AND, ORA, EOR, CMP (R200, R234 to R239). -/
def aluModes : List Mode :=
  [.immediate, .zeroPage, .zeroPageX, .absolute, .absoluteX, .absoluteY, .indirectX, .indirectY]

/-- STA and the six combined read-modify-write instructions (R203, R371 to R374, R377, R378). -/
def memoryModes : List Mode :=
  [.zeroPage, .zeroPageX, .absolute, .absoluteX, .absoluteY, .indirectX, .indirectY]

/-- INC, DEC and the NOPs with a memory operand (R243, R244, R392). -/
def rmwModes : List Mode := [.zeroPage, .zeroPageX, .absolute, .absoluteX]

/-- ASL, LSR, ROL, ROR (R281 to R284). -/
def shiftModes : List Mode := .accumulator :: rmwModes

/-- LDX (R201). -/
def ldxModes : List Mode := [.immediate, .zeroPage, .zeroPageY, .absolute, .absoluteY]

/-- LDY (R202). -/
def ldyModes : List Mode := [.immediate, .zeroPage, .zeroPageX, .absolute, .absoluteX]

/-- STX (R204). -/
def stxModes : List Mode := [.zeroPage, .zeroPageY, .absolute]

/-- STY (R205). -/
def styModes : List Mode := [.zeroPage, .zeroPageX, .absolute]

/-- CPX, CPY (R240, R241). -/
def indexCompareModes : List Mode := [.immediate, .zeroPage, .absolute]

/-- BIT (R242). -/
def bitModes : List Mode := [.zeroPage, .absolute]

/-- SAX (R375). -/
def saxModes : List Mode := [.zeroPage, .zeroPageY, .absolute, .indirectX]

/-- LAX (R376). -/
def laxModes : List Mode := [.zeroPage, .zeroPageY, .absolute, .absoluteY, .indirectX, .indirectY]

/-- AHX (R387). -/
def ahxModes : List Mode := [.absoluteY, .indirectY]

/-- The two bytes of ANC (R379). -/
def ancCodes : List Byte := [0x0B, 0x2B]

/-- The five bytes of NOP immediate (R391). -/
def nopImmediateCodes : List Byte := [0x80, 0x82, 0x89, 0xC2, 0xE2]

/-- The six bytes of the undocumented NOP implied (R393). -/
def nopImpliedCodes : List Byte := [0x1A, 0x3A, 0x5A, 0x7A, 0xDA, 0xFA]

/-- The twelve JAM bytes (R160, R420). -/
def jamCodes : List Byte := [0x02, 0x12, 0x22, 0x32, 0x42, 0x52, 0x62, 0x72, 0x92, 0xB2, 0xD2, 0xF2]

/-- The bytes of NOP with a memory operand, by mode (R392). -/
def nopMemoryCodes : Mode → List Byte
  | .zeroPage => [0x04, 0x44, 0x64]
  | .zeroPageX => [0x14, 0x34, 0x54, 0x74, 0xD4, 0xF4]
  | .absolute => [0x0C]
  | .absoluteX => [0x1C, 0x3C, 0x5C, 0x7C, 0xDC, 0xFC]
  | _ => []

/-- The instruction is a row of the opcode table (R156). -/
def Instr.wellFormed : Instr → Bool
  | .lda o | .adc o | .sbc o | .and o | .ora o | .eor o | .cmp o => decide (o.mode ∈ aluModes)
  | .sta o | .slo o | .rla o | .sre o | .rra o | .dcp o | .isb o => decide (o.mode ∈ memoryModes)
  | .inc o | .dec o => decide (o.mode ∈ rmwModes)
  | .asl o | .lsr o | .rol o | .ror o => decide (o.mode ∈ shiftModes)
  | .ldx o => decide (o.mode ∈ ldxModes)
  | .ldy o => decide (o.mode ∈ ldyModes)
  | .stx o => decide (o.mode ∈ stxModes)
  | .sty o => decide (o.mode ∈ styModes)
  | .cpx o | .cpy o => decide (o.mode ∈ indexCompareModes)
  | .bit o => decide (o.mode ∈ bitModes)
  | .sax o => decide (o.mode ∈ saxModes)
  | .lax o => decide (o.mode ∈ laxModes)
  | .ahx o => decide (o.mode ∈ ahxModes)
  | .anc code _ => decide (code ∈ ancCodes)
  | .nopImmediate code _ => decide (code ∈ nopImmediateCodes)
  | .nopImplied code => decide (code ∈ nopImpliedCodes)
  | .nopMemory code o => decide (code ∈ nopMemoryCodes o.mode)
  | .jam code => decide (code ∈ jamCodes)
  | .tax | .tay | .txa | .tya | .tsx | .txs => true
  | .inx | .iny | .dex | .dey => true
  | .bcc _ | .bcs _ | .beq _ | .bne _ | .bmi _ | .bpl _ | .bvc _ | .bvs _ => true
  | .jmp _ | .jmpInd _ | .jsr _ | .rts | .rti | .brk => true
  | .pha | .php | .pla | .plp | .clc | .cld | .cli | .clv | .sec | .sed | .sei | .nop => true
  | .alr _ | .arr _ | .axs _ | .sbcEB _ | .las _ | .xaa _ | .lxa _ | .shx _ | .shy _ | .tas _ => true

end Sys2Proof
end

