-- ==== Sys2Proof/Decode.lean ====
section
/-! DEFINITION. Decoding (30_encoding.md R150 to R161): the 256-row opcode map with the base cycles and page-cross mark of each row,
the decoder on bytes, and the encoder, written from the "Encoding" line of each instruction's own rule. -/

namespace Sys2Proof

/-- `w16(h, l)` of R10. -/
def w16 (h l : Byte) : Word := h ++ l

/-- `hi(w)` of R10. -/
def hi (w : Word) : Byte := w.extractLsb' 8 8

/-- `lo(w)` of R10. -/
def lo (w : Word) : Byte := w.extractLsb' 0 8

/-- One row of R156: its mode, the instruction it makes of operand bytes `b1` and `b2`, its base cycles and its `+p` mark. -/
structure OpRow where
  mode : Mode
  build : Byte → Byte → Instr
  cycles : Nat
  cross : Bool

/-- A row without operand. -/
def rowImp (i : Instr) (cycles : Nat) : OpRow := ⟨.implied, fun _ _ => i, cycles, false⟩

/-- A row whose one operand byte is an immediate or a branch offset. -/
def rowByte (m : Mode) (k : Byte → Instr) (cycles : Nat) : OpRow := ⟨m, fun b1 _ => k b1, cycles, false⟩

/-- A row of an instruction whose one operand form is a 16-bit address. -/
def rowWord (m : Mode) (k : Word → Instr) (cycles : Nat) (cross : Bool) : OpRow :=
  ⟨m, fun b1 b2 => k (w16 b2 b1), cycles, cross⟩

/-- Accumulator. -/
def rowAcc (k : Operand → Instr) (cycles : Nat) : OpRow := ⟨.accumulator, fun _ _ => k .acc, cycles, false⟩

/-- Immediate. -/
def rowImm (k : Operand → Instr) (cycles : Nat) : OpRow := ⟨.immediate, fun b1 _ => k (.imm b1), cycles, false⟩

/-- ZeroPage. -/
def rowZp (k : Operand → Instr) (cycles : Nat) : OpRow := ⟨.zeroPage, fun b1 _ => k (.zp b1), cycles, false⟩

/-- ZeroPage-X. -/
def rowZpX (k : Operand → Instr) (cycles : Nat) : OpRow := ⟨.zeroPageX, fun b1 _ => k (.zpX b1), cycles, false⟩

/-- ZeroPage-Y. -/
def rowZpY (k : Operand → Instr) (cycles : Nat) : OpRow := ⟨.zeroPageY, fun b1 _ => k (.zpY b1), cycles, false⟩

/-- Absolute. -/
def rowAbs (k : Operand → Instr) (cycles : Nat) : OpRow :=
  ⟨.absolute, fun b1 b2 => k (.abs (w16 b2 b1)), cycles, false⟩

/-- Absolute-X. -/
def rowAbsX (k : Operand → Instr) (cycles : Nat) (cross : Bool) : OpRow :=
  ⟨.absoluteX, fun b1 b2 => k (.absX (w16 b2 b1)), cycles, cross⟩

/-- Absolute-Y. -/
def rowAbsY (k : Operand → Instr) (cycles : Nat) (cross : Bool) : OpRow :=
  ⟨.absoluteY, fun b1 b2 => k (.absY (w16 b2 b1)), cycles, cross⟩

/-- Indirect-X. -/
def rowIndX (k : Operand → Instr) (cycles : Nat) : OpRow := ⟨.indirectX, fun b1 _ => k (.indX b1), cycles, false⟩

/-- Indirect-Y. -/
def rowIndY (k : Operand → Instr) (cycles : Nat) (cross : Bool) : OpRow :=
  ⟨.indirectY, fun b1 _ => k (.indY b1), cycles, cross⟩

/-- Opcodes 0x00 to 0x0F. -/
def opRows0 : List OpRow :=
  [rowImp .brk 7,
   rowIndX .ora 6,
   rowImp (.jam 0x02) 2,
   rowIndX .slo 8,
   rowZp (.nopMemory 0x04) 3,
   rowZp .ora 3,
   rowZp .asl 5,
   rowZp .slo 5,
   rowImp .php 3,
   rowImm .ora 2,
   rowAcc .asl 2,
   rowByte .immediate (.anc 0x0B) 2,
   rowAbs (.nopMemory 0x0C) 4,
   rowAbs .ora 4,
   rowAbs .asl 6,
   rowAbs .slo 6]

/-- Opcodes 0x10 to 0x1F. -/
def opRows1 : List OpRow :=
  [rowByte .relative .bpl 2,
   rowIndY .ora 5 true,
   rowImp (.jam 0x12) 2,
   rowIndY .slo 8 false,
   rowZpX (.nopMemory 0x14) 4,
   rowZpX .ora 4,
   rowZpX .asl 6,
   rowZpX .slo 6,
   rowImp .clc 2,
   rowAbsY .ora 4 true,
   rowImp (.nopImplied 0x1A) 2,
   rowAbsY .slo 7 false,
   rowAbsX (.nopMemory 0x1C) 4 true,
   rowAbsX .ora 4 true,
   rowAbsX .asl 7 false,
   rowAbsX .slo 7 false]

/-- Opcodes 0x20 to 0x2F. -/
def opRows2 : List OpRow :=
  [rowWord .absolute .jsr 6 false,
   rowIndX .and 6,
   rowImp (.jam 0x22) 2,
   rowIndX .rla 8,
   rowZp .bit 3,
   rowZp .and 3,
   rowZp .rol 5,
   rowZp .rla 5,
   rowImp .plp 4,
   rowImm .and 2,
   rowAcc .rol 2,
   rowByte .immediate (.anc 0x2B) 2,
   rowAbs .bit 4,
   rowAbs .and 4,
   rowAbs .rol 6,
   rowAbs .rla 6]

/-- Opcodes 0x30 to 0x3F. -/
def opRows3 : List OpRow :=
  [rowByte .relative .bmi 2,
   rowIndY .and 5 true,
   rowImp (.jam 0x32) 2,
   rowIndY .rla 8 false,
   rowZpX (.nopMemory 0x34) 4,
   rowZpX .and 4,
   rowZpX .rol 6,
   rowZpX .rla 6,
   rowImp .sec 2,
   rowAbsY .and 4 true,
   rowImp (.nopImplied 0x3A) 2,
   rowAbsY .rla 7 false,
   rowAbsX (.nopMemory 0x3C) 4 true,
   rowAbsX .and 4 true,
   rowAbsX .rol 7 false,
   rowAbsX .rla 7 false]

/-- Opcodes 0x40 to 0x4F. -/
def opRows4 : List OpRow :=
  [rowImp .rti 6,
   rowIndX .eor 6,
   rowImp (.jam 0x42) 2,
   rowIndX .sre 8,
   rowZp (.nopMemory 0x44) 3,
   rowZp .eor 3,
   rowZp .lsr 5,
   rowZp .sre 5,
   rowImp .pha 3,
   rowImm .eor 2,
   rowAcc .lsr 2,
   rowByte .immediate .alr 2,
   rowWord .absolute .jmp 3 false,
   rowAbs .eor 4,
   rowAbs .lsr 6,
   rowAbs .sre 6]

/-- Opcodes 0x50 to 0x5F. -/
def opRows5 : List OpRow :=
  [rowByte .relative .bvc 2,
   rowIndY .eor 5 true,
   rowImp (.jam 0x52) 2,
   rowIndY .sre 8 false,
   rowZpX (.nopMemory 0x54) 4,
   rowZpX .eor 4,
   rowZpX .lsr 6,
   rowZpX .sre 6,
   rowImp .cli 2,
   rowAbsY .eor 4 true,
   rowImp (.nopImplied 0x5A) 2,
   rowAbsY .sre 7 false,
   rowAbsX (.nopMemory 0x5C) 4 true,
   rowAbsX .eor 4 true,
   rowAbsX .lsr 7 false,
   rowAbsX .sre 7 false]

/-- Opcodes 0x60 to 0x6F. -/
def opRows6 : List OpRow :=
  [rowImp .rts 6,
   rowIndX .adc 6,
   rowImp (.jam 0x62) 2,
   rowIndX .rra 8,
   rowZp (.nopMemory 0x64) 3,
   rowZp .adc 3,
   rowZp .ror 5,
   rowZp .rra 5,
   rowImp .pla 4,
   rowImm .adc 2,
   rowAcc .ror 2,
   rowByte .immediate .arr 2,
   rowWord .indirectJmp .jmpInd 5 false,
   rowAbs .adc 4,
   rowAbs .ror 6,
   rowAbs .rra 6]

/-- Opcodes 0x70 to 0x7F. -/
def opRows7 : List OpRow :=
  [rowByte .relative .bvs 2,
   rowIndY .adc 5 true,
   rowImp (.jam 0x72) 2,
   rowIndY .rra 8 false,
   rowZpX (.nopMemory 0x74) 4,
   rowZpX .adc 4,
   rowZpX .ror 6,
   rowZpX .rra 6,
   rowImp .sei 2,
   rowAbsY .adc 4 true,
   rowImp (.nopImplied 0x7A) 2,
   rowAbsY .rra 7 false,
   rowAbsX (.nopMemory 0x7C) 4 true,
   rowAbsX .adc 4 true,
   rowAbsX .ror 7 false,
   rowAbsX .rra 7 false]

/-- Opcodes 0x80 to 0x8F. -/
def opRows8 : List OpRow :=
  [rowByte .immediate (.nopImmediate 0x80) 2,
   rowIndX .sta 6,
   rowByte .immediate (.nopImmediate 0x82) 2,
   rowIndX .sax 6,
   rowZp .sty 3,
   rowZp .sta 3,
   rowZp .stx 3,
   rowZp .sax 3,
   rowImp .dey 2,
   rowByte .immediate (.nopImmediate 0x89) 2,
   rowImp .txa 2,
   rowByte .immediate .xaa 2,
   rowAbs .sty 4,
   rowAbs .sta 4,
   rowAbs .stx 4,
   rowAbs .sax 4]

/-- Opcodes 0x90 to 0x9F. -/
def opRows9 : List OpRow :=
  [rowByte .relative .bcc 2,
   rowIndY .sta 6 false,
   rowImp (.jam 0x92) 2,
   rowIndY .ahx 6 false,
   rowZpX .sty 4,
   rowZpX .sta 4,
   rowZpY .stx 4,
   rowZpY .sax 4,
   rowImp .tya 2,
   rowAbsY .sta 5 false,
   rowImp .txs 2,
   rowWord .absoluteY .tas 5 false,
   rowWord .absoluteX .shy 5 false,
   rowAbsX .sta 5 false,
   rowWord .absoluteY .shx 5 false,
   rowAbsY .ahx 5 false]

/-- Opcodes 0xA0 to 0xAF. -/
def opRowsA : List OpRow :=
  [rowImm .ldy 2,
   rowIndX .lda 6,
   rowImm .ldx 2,
   rowIndX .lax 6,
   rowZp .ldy 3,
   rowZp .lda 3,
   rowZp .ldx 3,
   rowZp .lax 3,
   rowImp .tay 2,
   rowImm .lda 2,
   rowImp .tax 2,
   rowByte .immediate .lxa 2,
   rowAbs .ldy 4,
   rowAbs .lda 4,
   rowAbs .ldx 4,
   rowAbs .lax 4]

/-- Opcodes 0xB0 to 0xBF. -/
def opRowsB : List OpRow :=
  [rowByte .relative .bcs 2,
   rowIndY .lda 5 true,
   rowImp (.jam 0xB2) 2,
   rowIndY .lax 5 true,
   rowZpX .ldy 4,
   rowZpX .lda 4,
   rowZpY .ldx 4,
   rowZpY .lax 4,
   rowImp .clv 2,
   rowAbsY .lda 4 true,
   rowImp .tsx 2,
   rowWord .absoluteY .las 4 true,
   rowAbsX .ldy 4 true,
   rowAbsX .lda 4 true,
   rowAbsY .ldx 4 true,
   rowAbsY .lax 4 true]

/-- Opcodes 0xC0 to 0xCF. -/
def opRowsC : List OpRow :=
  [rowImm .cpy 2,
   rowIndX .cmp 6,
   rowByte .immediate (.nopImmediate 0xC2) 2,
   rowIndX .dcp 8,
   rowZp .cpy 3,
   rowZp .cmp 3,
   rowZp .dec 5,
   rowZp .dcp 5,
   rowImp .iny 2,
   rowImm .cmp 2,
   rowImp .dex 2,
   rowByte .immediate .axs 2,
   rowAbs .cpy 4,
   rowAbs .cmp 4,
   rowAbs .dec 6,
   rowAbs .dcp 6]

/-- Opcodes 0xD0 to 0xDF. -/
def opRowsD : List OpRow :=
  [rowByte .relative .bne 2,
   rowIndY .cmp 5 true,
   rowImp (.jam 0xD2) 2,
   rowIndY .dcp 8 false,
   rowZpX (.nopMemory 0xD4) 4,
   rowZpX .cmp 4,
   rowZpX .dec 6,
   rowZpX .dcp 6,
   rowImp .cld 2,
   rowAbsY .cmp 4 true,
   rowImp (.nopImplied 0xDA) 2,
   rowAbsY .dcp 7 false,
   rowAbsX (.nopMemory 0xDC) 4 true,
   rowAbsX .cmp 4 true,
   rowAbsX .dec 7 false,
   rowAbsX .dcp 7 false]

/-- Opcodes 0xE0 to 0xEF. -/
def opRowsE : List OpRow :=
  [rowImm .cpx 2,
   rowIndX .sbc 6,
   rowByte .immediate (.nopImmediate 0xE2) 2,
   rowIndX .isb 8,
   rowZp .cpx 3,
   rowZp .sbc 3,
   rowZp .inc 5,
   rowZp .isb 5,
   rowImp .inx 2,
   rowImm .sbc 2,
   rowImp .nop 2,
   rowByte .immediate .sbcEB 2,
   rowAbs .cpx 4,
   rowAbs .sbc 4,
   rowAbs .inc 6,
   rowAbs .isb 6]

/-- Opcodes 0xF0 to 0xFF. -/
def opRowsF : List OpRow :=
  [rowByte .relative .beq 2,
   rowIndY .sbc 5 true,
   rowImp (.jam 0xF2) 2,
   rowIndY .isb 8 false,
   rowZpX (.nopMemory 0xF4) 4,
   rowZpX .sbc 4,
   rowZpX .inc 6,
   rowZpX .isb 6,
   rowImp .sed 2,
   rowAbsY .sbc 4 true,
   rowImp (.nopImplied 0xFA) 2,
   rowAbsY .isb 7 false,
   rowAbsX (.nopMemory 0xFC) 4 true,
   rowAbsX .sbc 4 true,
   rowAbsX .inc 7 false,
   rowAbsX .isb 7 false]

/-- The opcode map of R155 and R156: row = high nibble, column = low nibble. -/
def opGrid : List (List OpRow) :=
  [opRows0, opRows1, opRows2, opRows3, opRows4, opRows5, opRows6, opRows7] ++
  [opRows8, opRows9, opRowsA, opRowsB, opRowsC, opRowsD, opRowsE, opRowsF]

/-- `OPTABLE[opcode]` of R156. Every byte has a row (Laws.opRow?_total), so `none` never happens (60_exceptions.md R432). -/
def opRow? (op : Byte) : Option OpRow :=
  match opGrid[op.toNat / 16]? with
  | none => none
  | some row => row[op.toNat % 16]?

/-- Why bytes do not decode. -/
inductive DecodeError where
  /-- There is no opcode byte. -/
  | empty
  /-- The opcode byte has no row: unreachable (R156, 60_exceptions.md R432). -/
  | unknownOpcode (op : Byte)
  /-- Fewer operand bytes follow than the row's mode needs (R151). -/
  | truncated (op : Byte)
  deriving DecidableEq, Repr

/-- The instruction of a row with its operand bytes taken from `rest`, and what follows it (R151, R153). -/
def OpRow.assemble (r : OpRow) (op : Byte) (rest : List Byte) : Except DecodeError (Instr × List Byte) :=
  match r.mode.operandBytes, rest with
  | 0, rest => .ok (r.build 0 0, rest)
  | 1, b1 :: rest => .ok (r.build b1 0, rest)
  | 2, b1 :: b2 :: rest => .ok (r.build b1 b2, rest)
  | _, _ => .error (.truncated op)

/-- Decodes the instruction at the head of a byte string and returns it with the bytes that follow (R3, R150). -/
def decode (bytes : List Byte) : Except DecodeError (Instr × List Byte) :=
  match bytes with
  | [] => .error .empty
  | op :: rest =>
    match opRow? op with
    | none => .error (.unknownOpcode op)
    | some r => r.assemble op rest

/-- The opcode byte that a list of modes and bytes gives a mode. -/
def codeFor (m : Mode) : List (Mode × Byte) → Option Byte
  | [] => none
  | (m', c) :: rest => if m = m' then some c else codeFor m rest

/-- The opcode byte of an instruction, from the "Encoding" line of its rule; `none` for a form that has no encoding. -/
def Instr.opcode? : Instr → Option Byte
  | .lda o => codeFor o.mode
     [(.immediate, 0xA9), (.zeroPage, 0xA5), (.zeroPageX, 0xB5), (.absolute, 0xAD),
      (.absoluteX, 0xBD), (.absoluteY, 0xB9), (.indirectX, 0xA1), (.indirectY, 0xB1)]
  | .ldx o => codeFor o.mode
     [(.immediate, 0xA2), (.zeroPage, 0xA6), (.zeroPageY, 0xB6), (.absolute, 0xAE),
      (.absoluteY, 0xBE)]
  | .ldy o => codeFor o.mode
     [(.immediate, 0xA0), (.zeroPage, 0xA4), (.zeroPageX, 0xB4), (.absolute, 0xAC),
      (.absoluteX, 0xBC)]
  | .sta o => codeFor o.mode
     [(.zeroPage, 0x85), (.zeroPageX, 0x95), (.absolute, 0x8D), (.absoluteX, 0x9D),
      (.absoluteY, 0x99), (.indirectX, 0x81), (.indirectY, 0x91)]
  | .stx o => codeFor o.mode
     [(.zeroPage, 0x86), (.zeroPageY, 0x96), (.absolute, 0x8E)]
  | .sty o => codeFor o.mode
     [(.zeroPage, 0x84), (.zeroPageX, 0x94), (.absolute, 0x8C)]
  | .tax => some 0xAA
  | .tay => some 0xA8
  | .txa => some 0x8A
  | .tya => some 0x98
  | .tsx => some 0xBA
  | .txs => some 0x9A
  | .adc o => codeFor o.mode
     [(.immediate, 0x69), (.zeroPage, 0x65), (.zeroPageX, 0x75), (.absolute, 0x6D),
      (.absoluteX, 0x7D), (.absoluteY, 0x79), (.indirectX, 0x61), (.indirectY, 0x71)]
  | .sbc o => codeFor o.mode
     [(.immediate, 0xE9), (.zeroPage, 0xE5), (.zeroPageX, 0xF5), (.absolute, 0xED),
      (.absoluteX, 0xFD), (.absoluteY, 0xF9), (.indirectX, 0xE1), (.indirectY, 0xF1)]
  | .and o => codeFor o.mode
     [(.immediate, 0x29), (.zeroPage, 0x25), (.zeroPageX, 0x35), (.absolute, 0x2D),
      (.absoluteX, 0x3D), (.absoluteY, 0x39), (.indirectX, 0x21), (.indirectY, 0x31)]
  | .ora o => codeFor o.mode
     [(.immediate, 0x09), (.zeroPage, 0x05), (.zeroPageX, 0x15), (.absolute, 0x0D),
      (.absoluteX, 0x1D), (.absoluteY, 0x19), (.indirectX, 0x01), (.indirectY, 0x11)]
  | .eor o => codeFor o.mode
     [(.immediate, 0x49), (.zeroPage, 0x45), (.zeroPageX, 0x55), (.absolute, 0x4D),
      (.absoluteX, 0x5D), (.absoluteY, 0x59), (.indirectX, 0x41), (.indirectY, 0x51)]
  | .cmp o => codeFor o.mode
     [(.immediate, 0xC9), (.zeroPage, 0xC5), (.zeroPageX, 0xD5), (.absolute, 0xCD),
      (.absoluteX, 0xDD), (.absoluteY, 0xD9), (.indirectX, 0xC1), (.indirectY, 0xD1)]
  | .cpx o => codeFor o.mode
     [(.immediate, 0xE0), (.zeroPage, 0xE4), (.absolute, 0xEC)]
  | .cpy o => codeFor o.mode
     [(.immediate, 0xC0), (.zeroPage, 0xC4), (.absolute, 0xCC)]
  | .bit o => codeFor o.mode
     [(.zeroPage, 0x24), (.absolute, 0x2C)]
  | .inc o => codeFor o.mode
     [(.zeroPage, 0xE6), (.zeroPageX, 0xF6), (.absolute, 0xEE), (.absoluteX, 0xFE)]
  | .dec o => codeFor o.mode
     [(.zeroPage, 0xC6), (.zeroPageX, 0xD6), (.absolute, 0xCE), (.absoluteX, 0xDE)]
  | .inx => some 0xE8
  | .iny => some 0xC8
  | .dex => some 0xCA
  | .dey => some 0x88
  | .asl o => codeFor o.mode
     [(.accumulator, 0x0A), (.zeroPage, 0x06), (.zeroPageX, 0x16), (.absolute, 0x0E),
      (.absoluteX, 0x1E)]
  | .lsr o => codeFor o.mode
     [(.accumulator, 0x4A), (.zeroPage, 0x46), (.zeroPageX, 0x56), (.absolute, 0x4E),
      (.absoluteX, 0x5E)]
  | .rol o => codeFor o.mode
     [(.accumulator, 0x2A), (.zeroPage, 0x26), (.zeroPageX, 0x36), (.absolute, 0x2E),
      (.absoluteX, 0x3E)]
  | .ror o => codeFor o.mode
     [(.accumulator, 0x6A), (.zeroPage, 0x66), (.zeroPageX, 0x76), (.absolute, 0x6E),
      (.absoluteX, 0x7E)]
  | .bcc _ => some 0x90
  | .bcs _ => some 0xB0
  | .beq _ => some 0xF0
  | .bne _ => some 0xD0
  | .bmi _ => some 0x30
  | .bpl _ => some 0x10
  | .bvc _ => some 0x50
  | .bvs _ => some 0x70
  | .jmp _ => some 0x4C
  | .jmpInd _ => some 0x6C
  | .jsr _ => some 0x20
  | .rts => some 0x60
  | .rti => some 0x40
  | .brk => some 0x00
  | .pha => some 0x48
  | .php => some 0x08
  | .pla => some 0x68
  | .plp => some 0x28
  | .clc => some 0x18
  | .cld => some 0xD8
  | .cli => some 0x58
  | .clv => some 0xB8
  | .sec => some 0x38
  | .sed => some 0xF8
  | .sei => some 0x78
  | .nop => some 0xEA
  | .slo o => codeFor o.mode
     [(.zeroPage, 0x07), (.zeroPageX, 0x17), (.absolute, 0x0F), (.absoluteX, 0x1F),
      (.absoluteY, 0x1B), (.indirectX, 0x03), (.indirectY, 0x13)]
  | .rla o => codeFor o.mode
     [(.zeroPage, 0x27), (.zeroPageX, 0x37), (.absolute, 0x2F), (.absoluteX, 0x3F),
      (.absoluteY, 0x3B), (.indirectX, 0x23), (.indirectY, 0x33)]
  | .sre o => codeFor o.mode
     [(.zeroPage, 0x47), (.zeroPageX, 0x57), (.absolute, 0x4F), (.absoluteX, 0x5F),
      (.absoluteY, 0x5B), (.indirectX, 0x43), (.indirectY, 0x53)]
  | .rra o => codeFor o.mode
     [(.zeroPage, 0x67), (.zeroPageX, 0x77), (.absolute, 0x6F), (.absoluteX, 0x7F),
      (.absoluteY, 0x7B), (.indirectX, 0x63), (.indirectY, 0x73)]
  | .sax o => codeFor o.mode
     [(.zeroPage, 0x87), (.zeroPageY, 0x97), (.absolute, 0x8F), (.indirectX, 0x83)]
  | .lax o => codeFor o.mode
     [(.zeroPage, 0xA7), (.zeroPageY, 0xB7), (.absolute, 0xAF), (.absoluteY, 0xBF),
      (.indirectX, 0xA3), (.indirectY, 0xB3)]
  | .dcp o => codeFor o.mode
     [(.zeroPage, 0xC7), (.zeroPageX, 0xD7), (.absolute, 0xCF), (.absoluteX, 0xDF),
      (.absoluteY, 0xDB), (.indirectX, 0xC3), (.indirectY, 0xD3)]
  | .isb o => codeFor o.mode
     [(.zeroPage, 0xE7), (.zeroPageX, 0xF7), (.absolute, 0xEF), (.absoluteX, 0xFF),
      (.absoluteY, 0xFB), (.indirectX, 0xE3), (.indirectY, 0xF3)]
  | .anc code _ => if code ∈ ancCodes then some code else none
  | .alr _ => some 0x4B
  | .arr _ => some 0x6B
  | .axs _ => some 0xCB
  | .sbcEB _ => some 0xEB
  | .las _ => some 0xBB
  | .xaa _ => some 0x8B
  | .lxa _ => some 0xAB
  | .ahx o => codeFor o.mode
     [(.absoluteY, 0x9F), (.indirectY, 0x93)]
  | .shx _ => some 0x9E
  | .shy _ => some 0x9C
  | .tas _ => some 0x9B
  | .nopImmediate code _ => if code ∈ nopImmediateCodes then some code else none
  | .nopMemory code o => if code ∈ nopMemoryCodes o.mode then some code else none
  | .nopImplied code => if code ∈ nopImpliedCodes then some code else none
  | .jam code => if code ∈ jamCodes then some code else none

/-- The operand bytes of an operand form, in address order (R151, R153). -/
def Operand.bytes : Operand → List Byte
  | .acc => []
  | .imm b | .zp b | .zpX b | .zpY b | .indX b | .indY b => [b]
  | .abs w | .absX w | .absY w => [lo w, hi w]

/-- The operand bytes of an instruction, in address order (R151). -/
def Instr.operandBytes : Instr → List Byte
  | .lda o => o.bytes
  | .ldx o => o.bytes
  | .ldy o => o.bytes
  | .sta o => o.bytes
  | .stx o => o.bytes
  | .sty o => o.bytes
  | .tax => []
  | .tay => []
  | .txa => []
  | .tya => []
  | .tsx => []
  | .txs => []
  | .adc o => o.bytes
  | .sbc o => o.bytes
  | .and o => o.bytes
  | .ora o => o.bytes
  | .eor o => o.bytes
  | .cmp o => o.bytes
  | .cpx o => o.bytes
  | .cpy o => o.bytes
  | .bit o => o.bytes
  | .inc o => o.bytes
  | .dec o => o.bytes
  | .inx => []
  | .iny => []
  | .dex => []
  | .dey => []
  | .asl o => o.bytes
  | .lsr o => o.bytes
  | .rol o => o.bytes
  | .ror o => o.bytes
  | .bcc off => [off]
  | .bcs off => [off]
  | .beq off => [off]
  | .bne off => [off]
  | .bmi off => [off]
  | .bpl off => [off]
  | .bvc off => [off]
  | .bvs off => [off]
  | .jmp w => [lo w, hi w]
  | .jmpInd w => [lo w, hi w]
  | .jsr w => [lo w, hi w]
  | .rts => []
  | .rti => []
  | .brk => []
  | .pha => []
  | .php => []
  | .pla => []
  | .plp => []
  | .clc => []
  | .cld => []
  | .cli => []
  | .clv => []
  | .sec => []
  | .sed => []
  | .sei => []
  | .nop => []
  | .slo o => o.bytes
  | .rla o => o.bytes
  | .sre o => o.bytes
  | .rra o => o.bytes
  | .sax o => o.bytes
  | .lax o => o.bytes
  | .dcp o => o.bytes
  | .isb o => o.bytes
  | .anc _ imm => [imm]
  | .alr imm => [imm]
  | .arr imm => [imm]
  | .axs imm => [imm]
  | .sbcEB imm => [imm]
  | .las w => [lo w, hi w]
  | .xaa imm => [imm]
  | .lxa imm => [imm]
  | .ahx o => o.bytes
  | .shx w => [lo w, hi w]
  | .shy w => [lo w, hi w]
  | .tas w => [lo w, hi w]
  | .nopImmediate _ imm => [imm]
  | .nopMemory _ o => o.bytes
  | .nopImplied _ => []
  | .jam _ => []

/-- The bytes of an instruction; the empty string for a form that has no encoding. -/
def encode (i : Instr) : List Byte :=
  match i.opcode? with
  | none => []
  | some c => c :: i.operandBytes

/-- The table row of an instruction. -/
def Instr.row? (i : Instr) : Option OpRow := i.opcode?.bind opRow?

/-- The base cycle count of the instruction's row (R156 column "cycles", 70_reset_and_hazards.md R561). -/
def Instr.baseCycles (i : Instr) : Nat := (i.row?.map OpRow.cycles).getD 0

/-- The `+p` mark of the instruction's row (R156, 70_reset_and_hazards.md R562). -/
def Instr.crossPenalty (i : Instr) : Bool := (i.row?.map OpRow.cross).getD false

/-- The instruction's length in bytes (R151). -/
def Instr.length (i : Instr) : Nat := 1 + i.operandBytes.length

/-- The three bytes of a table word: bit 0 is the least significant bit of the first byte, bits above `nbits` are 0. -/
def tableBytes (nbits w : Nat) : List Byte :=
  let w := w % 2 ^ nbits
  [BitVec.ofNat 8 w, BitVec.ofNat 8 (w / 256), BitVec.ofNat 8 (w / 65536)]

/-- The instruction the decoder reads from a table word. -/
def decodeTableWord (nbits w : Nat) : Option Instr :=
  match decode (tableBytes nbits w) with
  | .ok (i, _) => some i
  | .error _ => none

end Sys2Proof
end

