-- ==== Sys2Proof/Machine/Memory.lean ====
section
/-! DEFINITION. The one memory type of the model: reading and writing a byte, and the canonical form (log 3). -/

namespace Sys2Proof.Machine

/-- What an index without a cell reads as (log 3). -/
def unlistedByte : Byte := 0x00

/-- The byte at index `k`. -/
def Memory.read : Memory → Nat → Byte
  | [], _ => unlistedByte
  | (j, b) :: rest, k => if j = k then b else Memory.read rest k

/-- Without any cell of index `k`. -/
def Memory.erase : Memory → Nat → Memory
  | [], _ => []
  | (j, b) :: rest, k => if j = k then Memory.erase rest k else (j, b) :: Memory.erase rest k

/-- With the cell `(k, v)` before the first greater index. -/
def Memory.insert : Memory → Nat → Byte → Memory
  | [], k, v => [(k, v)]
  | (j, b) :: rest, k, v => if k < j then (k, v) :: (j, b) :: rest else (j, b) :: Memory.insert rest k v

/-- Writes byte `v` at index `k`, in canonical form. -/
def Memory.write (m : Memory) (k : Nat) (v : Byte) : Memory :=
  if v = unlistedByte then Memory.erase m k else Memory.insert (Memory.erase m k) k v

/-- Every index is below `n`. -/
def Memory.within (n : Nat) : Memory → Bool
  | [] => true
  | (j, _) :: rest => decide (j < n) && Memory.within n rest

/-- Every index is above `k`, strictly rising, and no cell holds the unlisted byte. -/
def Memory.wfAbove : Nat → Memory → Bool
  | _, [] => true
  | k, (j, b) :: rest => decide (k < j) && (b != unlistedByte) && Memory.wfAbove j rest

/-- The canonical form: indexes strictly rising and no cell holding the unlisted byte. -/
def Memory.wf : Memory → Bool
  | [] => true
  | (j, b) :: rest => (b != unlistedByte) && Memory.wfAbove j rest

/-- The memory that holds the given bytes from index `k` on. -/
def Memory.ofBytesFrom : Nat → List Byte → Memory
  | _, [] => []
  | k, b :: rest =>
    if b = unlistedByte then Memory.ofBytesFrom (k + 1) rest else (k, b) :: Memory.ofBytesFrom (k + 1) rest

end Sys2Proof.Machine
end

