-- ==== Sys2Proof/Machine/PpuOps.lean ====
section
/-! DEFINITION. The PPU: its internal address space (20_memory.md R110 to R121), its registers' read and write effects
(60_exceptions.md R477 to R489) and its timing (R470 to R475). -/

namespace Sys2Proof.Machine

/-- The physical bank of logical nametable `n` (20_memory.md R115). FourScreen has no row (R121). -/
def ntBank (m : Mirroring) (n : Nat) : Nat :=
  match m with
  | .vertical => n % 2
  | .horizontal => n / 2
  | .fourScreen => 0

/-- `NtIndex(a)` for a in 0x2000 to 0x3EFF (R113 to R115). -/
def ntIndex (m : Mirroring) (a : BitVec 14) : Nat :=
  let rel := (a &&& 0x2FFF).toNat - 0x2000
  ntBank m (rel / 0x400) * 0x400 + rel % 0x400

/-- `PalIndex(a)` for a in 0x3F00 to 0x3FFF (R116). -/
def palIndex (a : BitVec 14) : Nat :=
  let p := a.toNat % 32
  if p = 0x10 ∨ p = 0x14 ∨ p = 0x18 ∨ p = 0x1C then p - 0x10 else p

/-- `PpuRead(a)` (R110). -/
def Ppu.read (p : Ppu) (a : BitVec 14) : Byte :=
  if a.toNat ≤ 0x1FFF then p.chr.read a.toNat
  else if a.toNat ≤ 0x3EFF then
    match p.mirroring with
    | .fourScreen => 0x00
    | m => p.vram.read (ntIndex m a)
  else p.palette.read (palIndex a)

/-- `PpuWrite(a, v)` (R111) where it does not fault: CHR is never written (R118). -/
def Ppu.write (p : Ppu) (a : BitVec 14) (v : Byte) : Ppu :=
  if a.toNat ≤ 0x1FFF then p
  else if a.toNat ≤ 0x3EFF then
    match p.mirroring with
    | .fourScreen => p
    | m => { p with vram := p.vram.write (ntIndex m a) v }
  else { p with palette := p.palette.write (palIndex a) v }

/-- The increment of the VRAM pointer (60_exceptions.md R483). -/
def Ppu.increment (p : Ppu) : BitVec 14 := if p.ctrl.getLsbD 2 then 32 else 1

/-- `v <- (v + inc) & 0x3FFF` (R477, R478). -/
def Ppu.advanceV (p : Ppu) : Ppu := { p with v := p.v + p.increment }

/-- The PPU data write where it does not fault (R477). -/
def Ppu.writeData (p : Ppu) (val : Byte) : Ppu := (p.write p.v val).advanceV

/-- The byte a PPU data read returns (R478). -/
def Ppu.dataByte (p : Ppu) : Byte := if p.v.toNat ≤ 0x3EFF then p.readBuf else p.read p.v

/-- The effect of a PPU data read (R478). -/
def Ppu.afterDataRead (p : Ppu) : Ppu :=
  if p.v.toNat ≤ 0x3EFF then ({ p with readBuf := p.read p.v }).advanceV else p.advanceV

/-- The PPU control write (R480). -/
def Ppu.writeCtrl (p : Ppu) (val : Byte) : Ppu :=
  { p with
    ctrl := val
    nmiPending := p.nmiPending || (!p.ctrl.getLsbD 7 && val.getLsbD 7 && p.vblank) }

/-- The PPU mask write (R486). -/
def Ppu.writeMask (p : Ppu) (val : Byte) : Ppu := { p with mask := val }

/-- The OAM address write (R488). -/
def Ppu.writeOamAddr (p : Ppu) (val : Byte) : Ppu := { p with oamAddr := val }

/-- The OAM data write (R484). -/
def Ppu.writeOamData (p : Ppu) (val : Byte) : Ppu :=
  { p with oam := p.oam.write p.oamAddr.toNat val, oamAddr := p.oamAddr + 1 }

/-- The write toggle of the scroll register: one bit with `addr_w` under `SHARED_W_TOGGLE` (10_state.md R68; log 14). -/
def Ppu.scrollToggle (p : Ppu) (shared : Bool) : Bool := if shared then p.addrW else p.scrollW

/-- The scroll register's write toggle inverted, wherever it is held (log 14). -/
def Ppu.flipScrollToggle (p : Ppu) (shared : Bool) : Ppu :=
  if shared then { p with addrW := !p.addrW } else { p with scrollW := !p.scrollW }

/-- The PPU scroll write (R482). -/
def Ppu.writeScroll (p : Ppu) (shared : Bool) (val : Byte) : Ppu :=
  (if p.scrollToggle shared then { p with scrollY := val } else { p with scrollX := val }).flipScrollToggle shared

/-- The PPU address write (R479): `& 0x3FFF` is the truncation to 14 bits. -/
def Ppu.writeAddr (p : Ppu) (val : Byte) : Ppu :=
  let v16 : Word := p.v.setWidth 16
  let w : Word := if p.addrW then (v16 &&& 0xFF00) ||| val.setWidth 16 else (val.setWidth 16 <<< 8) ||| (v16 &&& 0x00FF)
  { p with v := w.setWidth 14, addrW := !p.addrW }

/-- `(status & 0xE0) | low` (R481, 10_state.md R66). -/
def Ppu.statusByte (p : Ppu) (low : BitVec 5) : Byte :=
  BitVec.ofNat 8 (p.vblank.toNat * 128 + p.spriteZero.toNat * 64 + p.overflow.toNat * 32 + low.toNat)

/-- The effect of a PPU status read (R481). -/
def Ppu.afterStatusRead (p : Ppu) : Ppu := { p with vblank := false, addrW := false, scrollW := false }

/-- The byte an OAM data read returns (R489). -/
def Ppu.oamByte (p : Ppu) : Byte := p.oam.read p.oamAddr.toNat

/-- The events of a new scanline: entry to 241 (R470) and the wrap at 262 (R471). -/
def Ppu.lineEvents (p : Ppu) : Ppu :=
  if p.scanline = 241 then
    { p with vblank := true, spriteZero := false, nmiPending := p.nmiPending || p.ctrl.getLsbD 7 }
  else if p.scanline = 262 then
    { p with scanline := 0, nmiPending := false, spriteZero := false, vblank := false, overflow := false }
  else p

/-- The renderer oracle after a dot of scanlines 0 to 239 (R473, R474; log 9). -/
def Ppu.rendererOracle (par : Params) (p : Ppu) : Ppu :=
  { p with
    spriteZero := p.spriteZero || (decide (par.sprite0Source = .oracle) && Config.spriteZeroHit p.oracleIndex)
    overflow := p.overflow || (decide (par.overflowSource = .oracle) && Config.spriteOverflow p.oracleIndex)
    oracleIndex := p.oracleIndex + 1 }

/-- The dot counter advanced, with the scanline's carry and its events (R475 but for the oracle). -/
def Ppu.advanceDot (p : Ppu) : Ppu :=
  if p.dot + 1 = 341 then Ppu.lineEvents { p with dot := 0, scanline := p.scanline + 1 }
  else { p with dot := p.dot + 1 }

/-- `PpuDotStep()` (R475). -/
def Ppu.dotStep (par : Params) (p : Ppu) : Ppu :=
  let p := p.advanceDot
  if p.scanline ≤ 239 then p.rendererOracle par else p

/-- A tick of `n` dots is `n` dot steps (R472). -/
def Ppu.dots (par : Params) : Nat → Ppu → Ppu
  | 0, p => p
  | n + 1, p => Ppu.dots par n (p.dotStep par)

end Sys2Proof.Machine
end

