-- ==== Sys2Proof/Machine/Ops.lean ====
section
/-! DEFINITION. The named operations over the state: register writes, the cycle count, raising a fault, the CPU address router
(20_memory.md), OAM DMA, the stack, taking an NMI and returning from it, fetching an instruction, and the bus tick. -/

namespace Sys2Proof.Machine

/-! ## Register writes -/

/-- `A <- v`. -/
def State.setA (s : State) (v : Byte) : State := { s with a := v }

/-- `X <- v`. -/
def State.setX (s : State) (v : Byte) : State := { s with x := v }

/-- `Y <- v`. -/
def State.setY (s : State) (v : Byte) : State := { s with y := v }

/-- `SP <- v`. -/
def State.setSP (s : State) (v : Byte) : State := { s with sp := v }

/-- `PC <- w`. -/
def State.setPC (s : State) (w : Word) : State := { s with pc := w }

/-- `P <- f`. -/
def State.setP (s : State) (f : Flags) : State := { s with p := f }

/-- `SetNZ(v)` on P (42_arithmetic_logic.md R230). -/
def State.setNZ (s : State) (v : Byte) : State := s.setP (s.p.setNZ v)

/-- `cpu_run <- r` (10_state.md R46). -/
def State.setRun (s : State) (r : RunState) : State := { s with cpuRun := r }

/-- Work RAM replaced. -/
def State.setRam (s : State) (m : Memory) : State := { s with ram := m }

/-- The PPU replaced. -/
def State.setPpu (s : State) (p : Ppu) : State := { s with ppu := p }

/-- The step context replaced (log 12). -/
def State.setCtx (s : State) (c : StepCtx) : State := { s with ctx := c }

/-- One free value used (log 11). -/
def State.draw (s : State) : State := { s with draws := s.draws + 1 }

/-- `InputWrite(v)`: the byte is delivered to the device, which may change by it (20_memory.md R87; log 8). -/
def State.inputWrite (s : State) (v : Byte) : State :=
  { s with input := Config.inputAfterWrite s.input v, inputWrites := v :: s.inputWrites }

/-- `FrameEvent()` where the NMI latch rose from what it was `before` a bus tick: the host's handler runs with a snapshot of the PPU and
may change the input device, and nothing else (60_exceptions.md R465, R468, R502; log 13). -/
def State.frameEventOnRise (before : Bool) (s : State) : State :=
  { s with
    input := if !before && s.ppu.nmiPending then Config.onFrame s.handler s.frameEvents s.ppu s.input else s.input
    frameEvents := if !before && s.ppu.nmiPending then s.frameEvents + 1 else s.frameEvents }

/-- `Tick(n)` (70_reset_and_hazards.md R560). -/
def State.tick (s : State) (n : Nat) : State := s.setCtx { s.ctx with cyc := s.ctx.cyc + n }

/-! ## Faults -/

/-- The state R431 leaves: every earlier effect kept, `cpu_run` Faulted, the step over. -/
def State.faultedBy (s : State) (info : FaultInfo) : State := (s.setRun (.faulted info)).setCtx StepCtx.idle

/-- `raise Fault(kind, info)` (60_exceptions.md R430, R431). -/
def raise (c : FaultCause) (s : State) : Fault :=
  let info : FaultInfo := { cause := c, opAddr := s.ctx.opAddr, opcode := s.ctx.opcode }
  .stopped info (s.faultedBy info)

/-- A result that may be a fault, as an outcome. -/
def outcome : Except Fault State → Host.Outcome State Fault Refusal
  | .ok s => .next s
  | .error f => .fault f

/-! ## The CPU address router -/

/-- The eight PPU registers, by offset (10_state.md R74). -/
inductive PpuReg where
  | control
  | mask
  | status
  | oamAddress
  | oamData
  | scroll
  | address
  | data
  deriving DecidableEq, Repr

/-- The register at offset `n & 7` (20_memory.md R84). -/
def ppuRegAt (n : Nat) : PpuReg :=
  match n % 8 with
  | 0 => .control
  | 1 => .mask
  | 2 => .status
  | 3 => .oamAddress
  | 4 => .oamData
  | 5 => .scroll
  | 6 => .address
  | _ => .data

/-- A row of the region map, with the index an access reaches (20_memory.md R82). -/
inductive Region where
  | ram (i : Nat)
  | ppu (r : PpuReg)
  | audio
  | oamDma
  | input
  | input2
  | unmapped
  | prg (i : Nat)
  deriving DecidableEq, Repr

/-- `PRG_SIZE` in bytes (10_state.md R51). -/
def PrgSize.bytes : PrgSize → Nat
  | .k16 => 16384
  | .k32 => 32768

/-- The region map (R82). -/
def region (size : PrgSize) (a : Word) : Region :=
  let n := a.toNat
  if n < 0x2000 then .ram (n % 0x800)
  else if n < 0x4000 then .ppu (ppuRegAt n)
  else if n < 0x4014 then .audio
  else if n = 0x4014 then .oamDma
  else if n = 0x4015 then .audio
  else if n = 0x4016 then .input
  else if n = 0x4017 then .input2
  else if n < 0x8000 then .unmapped
  else .prg ((n - 0x8000) % size.bytes)

/-- The PPU registers a CPU read of which is write-only (60_exceptions.md R485). -/
def PpuReg.writeOnly : PpuReg → Bool
  | .control | .mask | .oamAddress | .scroll | .address => true
  | .status | .oamData | .data => false

/-- The fault of a CPU read, if it faults (20_memory.md R98). -/
def readFault? (a : Word) (s : State) : Option FaultCause :=
  match region s.prgSize a with
  | .ppu r => if r.writeOnly && decide (s.params.woRead = .fault) then some (.ppuWriteOnlyRead a) else none
  | _ => none

/-- Bits 4 to 0 of a status read (60_exceptions.md R481). -/
def statusLowBits (s : State) : BitVec 5 :=
  match s.params.statusLowBits with
  | .zero => 0
  | .any => Config.statusLow s.draws

/-- The byte a CPU read that does not fault returns (R82 to R91). -/
def readByte (a : Word) (s : State) : Byte :=
  match region s.prgSize a with
  | .ram i => s.ram.read i
  | .ppu .status => s.ppu.statusByte (statusLowBits s)
  | .ppu .oamData => s.ppu.oamByte
  | .ppu .data => s.ppu.dataByte
  | .ppu .control | .ppu .mask | .ppu .oamAddress | .ppu .scroll | .ppu .address => Config.writeOnlyByte s.draws
  | .input => Config.inputByte s.input s.draws
  | .audio | .oamDma | .input2 | .unmapped => 0x00
  | .prg i => s.prg.read i

/-- The state after a CPU read that does not fault (R98). -/
def afterRead (a : Word) (s : State) : State :=
  match region s.prgSize a with
  | .ppu .status =>
    match s.params.statusLowBits with
    | .zero => s.setPpu s.ppu.afterStatusRead
    | .any => (s.setPpu s.ppu.afterStatusRead).draw
  | .ppu .data => s.setPpu s.ppu.afterDataRead
  | .ppu .control | .ppu .mask | .ppu .oamAddress | .ppu .scroll | .ppu .address => s.draw
  | .input => s.draw
  | .ram _ | .ppu .oamData | .audio | .oamDma | .input2 | .unmapped | .prg _ => s

/-- `MemRead(addr, 1)` (R80). -/
def memRead (a : Word) (s : State) : Except Fault (Byte × State) :=
  match readFault? a s with
  | some c => .error (raise c s)
  | none => .ok (readByte a s, afterRead a s)

/-- One byte of the OAM DMA (60_exceptions.md R490): read through the router, written at the cursor. -/
def dmaByte (a : Word) (s : State) : Except Fault State :=
  match memRead a s with
  | .error f => .error f
  | .ok (b, s) => .ok (s.setPpu (s.ppu.writeOamData b))

/-- The last `n` bytes of the OAM DMA from page `pg` (R490). -/
def dmaCopy (pg : Byte) : Nat → State → Except Fault State
  | 0, s => .ok s
  | n + 1, s =>
    match dmaByte (w16 pg (BitVec.ofNat 8 (255 - n))) s with
    | .error f => .error f
    | .ok s => dmaCopy pg n s

/-- OAM DMA (R490): 256 bytes, then `Tick(DMA_CYCLES)`. -/
def oamDma (pg : Byte) (s : State) : Except Fault State :=
  match dmaCopy pg 256 s with
  | .error f => .error f
  | .ok s => .ok (s.tick s.params.dmaCycles)

/-- The fault of the access a CPU write makes, if it faults (20_memory.md R90, R98, R118, 60_exceptions.md R487). -/
def writeFault? (a : Word) (v : Byte) (s : State) : Option FaultCause :=
  match region s.prgSize a with
  | .ppu .status => if s.params.statusWrite = .fault then some (.ppuStatusWrite a v) else none
  | .ppu .data =>
    if s.ppu.v.toNat ≤ 0x1FFF ∧ s.params.chrWrite = .fault then some (.romWriteAttempt .chr (s.ppu.v.setWidth 16) v)
    else none
  | .prg _ => some (.romWriteAttempt .cpu a v)
  | _ => none

/-- `MemWrite(addr, 1, v)` (20_memory.md R81). -/
def memWrite (a : Word) (v : Byte) (s : State) : Except Fault State :=
  match writeFault? a v s with
  | some c => .error (raise c s)
  | none =>
    match region s.prgSize a with
    | .ram i => .ok (s.setRam (s.ram.write i v))
    | .ppu .control => .ok (s.setPpu (s.ppu.writeCtrl v))
    | .ppu .mask => .ok (s.setPpu (s.ppu.writeMask v))
    | .ppu .oamAddress => .ok (s.setPpu (s.ppu.writeOamAddr v))
    | .ppu .oamData => .ok (s.setPpu (s.ppu.writeOamData v))
    | .ppu .scroll => .ok (s.setPpu (s.ppu.writeScroll s.params.sharedW v))
    | .ppu .address => .ok (s.setPpu (s.ppu.writeAddr v))
    | .ppu .data => .ok (s.setPpu (s.ppu.writeData v))
    | .oamDma => oamDma v s
    | .input => .ok (s.inputWrite v)
    | .ppu .status | .audio | .input2 | .unmapped | .prg _ => .ok s

/-! ## The stack: page 0x0100 of work RAM, no side effect and no fault (45_stack_flags_misc.md R340, R341; log 20) -/

/-- The RAM index of the stack byte SP designates (10_state.md R33). -/
def stackIndex (sp : Byte) : Nat := 0x100 + sp.toNat

/-- `Push(v)` (R340). -/
def State.push (s : State) (v : Byte) : State := (s.setRam (s.ram.write (stackIndex s.sp) v)).setSP (s.sp - 1)

/-- The byte `Pop()` returns (R341). -/
def State.popByte (s : State) : Byte := s.ram.read (stackIndex (s.sp + 1))

/-- The effect of `Pop()` (R341). -/
def State.popped (s : State) : State := s.setSP (s.sp + 1)

/-- `Push16(w)`: high byte, then low byte (R342). -/
def State.push16 (s : State) (w : Word) : State := (s.push (hi w)).push (lo w)

/-- The word `Pop16()` returns: low byte, then high byte (R342). -/
def State.popWord (s : State) : Word := w16 s.popped.popByte s.popByte

/-- The effect of `Pop16()`. -/
def State.popped16 (s : State) : State := s.popped.popped

/-! ## NMI entry and return -/

/-- A byte of PRG ROM at a CPU address of 0x8000 to 0xFFFF (20_memory.md R89). -/
def prgByte (a : Word) (s : State) : Byte := s.prg.read ((a.toNat - 0x8000) % s.prgSize.bytes)

/-- A vector in PRG ROM, little-endian (20_memory.md R96, R101). -/
def vector (a : Word) (s : State) : Word := w16 (prgByte (a + 1) s) (prgByte a s)

/-- `NmiEntry()` (60_exceptions.md R454). -/
def nmiEntry (s : State) : State :=
  let s := (s.push16 s.pc).push s.p.nmiByte
  let s := (s.setP { s.p with i := true }).tick s.params.nmiCycles
  s.setPC (vector 0xFFFA s)

/-- Return from interrupt: P, then PC (44_control_flow.md R314). -/
def returnFromInterrupt (s : State) : State :=
  let s := (s.setP (Flags.popped s.popByte)).popped
  (s.setPC s.popWord).popped16

/-- `Poll()` with the NMI entry it decides (60_exceptions.md R440, R460). -/
def serviceNmi (s : State) : State :=
  if s.ppu.nmiPending then nmiEntry (s.setPpu { s.ppu with nmiPending := false }) else s

/-! ## Fetch -/

/-- `Fetch8()` (30_encoding.md R152). -/
def fetch8 (s : State) : Except Fault (Byte × State) :=
  match memRead s.pc s with
  | .error f => .error f
  | .ok (v, s) => .ok (v, s.setPC (s.pc + 1))

/-- `op_addr <- PC`, the opcode not fetched yet (60_exceptions.md R430, R440). -/
def beginInstr (s : State) : State := s.setCtx { s.ctx with opAddr := s.pc, opcode := none }

/-- The opcode byte noted for a fault's info (R430). -/
def noteOpcode (op : Byte) (s : State) : State := s.setCtx { s.ctx with opcode := some op }

/-- The operand bytes of a row fetched and the instruction made (30_encoding.md R152, R153). -/
def fetchOperands (r : OpRow) (s : State) : Except Fault (Instr × State) :=
  match r.mode.operandBytes with
  | 0 => .ok (r.build 0 0, s)
  | 1 =>
    match fetch8 s with
    | .error f => .error f
    | .ok (b1, s) => .ok (r.build b1 0, s)
  | _ =>
    match fetch8 s with
    | .error f => .error f
    | .ok (b1, s) =>
      match fetch8 s with
      | .error f => .error f
      | .ok (b2, s) => .ok (r.build b1 b2, s)

/-- The instruction at PC fetched and decoded (60_exceptions.md R440). -/
def fetchInstr (s : State) : Except Fault (Instr × State) :=
  match fetch8 (beginInstr s) with
  | .error f => .error f
  | .ok (op, s) =>
    match opRow? op with
    | none => .error (raise .unknownOpcode (noteOpcode op s))
    | some r => fetchOperands r (noteOpcode op s)

/-! ## Cycles and the bus tick -/

/-- The base cycles a step charges: none for BRK and for JAM under `JAM_POLICY = jam` (60_exceptions.md R440,
70_reset_and_hazards.md R561). -/
def baseCharge (par : Params) (i : Instr) : Nat :=
  match i with
  | .brk => 0
  | .jam code => if par.jamPolicy = .jam then 0 else (Instr.jam code).baseCycles
  | i => i.baseCycles

/-- `Tick(row.cycles)` (R440). -/
def chargeBase (i : Instr) (s : State) : State := s.tick (baseCharge s.params i)

/-- `Tick(1)` for a `+p` row whose effective address crossed a page (70_reset_and_hazards.md R562). -/
def chargeCross (i : Instr) (cross : Bool) (s : State) : State := if i.crossPenalty && cross then s.tick 1 else s

/-- `BusTick(n)` (60_exceptions.md R465 to R468). -/
def busTick (n : Nat) (s : State) : State :=
  let t := { s with busCycles := s.busCycles + n, ppu := s.ppu.dots s.params (3 * n) }
  t.frameEventOnRise s.ppu.nmiPending

/-- The end of a step: the bus tick of the step's cycles, the step context cleared (R440, 10_state.md R47). -/
def endStep (s : State) : State := (busTick s.ctx.cyc s).setCtx StepCtx.idle

end Sys2Proof.Machine
end

