-- ==== Sys2Proof/Machine/Operands.lean ====
section
/-! DEFINITION. Addressing modes and operand access (40_addressing.md), and the shapes most instructions share: read an operand,
store a byte, read-modify-write, branch, unstable store. -/

namespace Sys2Proof.Machine

/-- A zero-page address as a CPU address (R174). -/
def zext (z : Byte) : Word := z.setWidth 16

/-- `sext8` as a 16-bit two's-complement word (00_scope.md R10). -/
def sext8 (v : Byte) : Word := v.signExtend 16

/-- `ZpRead16(p)`: the high byte comes from `(p + 1) mod 256` (R171). Both reads are of work RAM (log 20). -/
def zpRead16 (z : Byte) (s : State) : Word := w16 (s.ram.read (z + 1).toNat) (s.ram.read z.toNat)

/-- The address before indexing: `base` of R179, R180, R183 and R421; for the other forms, the effective address. -/
def baseAddr (o : Operand) (s : State) : Word :=
  match o with
  | .acc | .imm _ => 0
  | .zp z => zext z
  | .zpX z => zext (z + s.x)
  | .zpY z => zext (z + s.y)
  | .abs w | .absX w | .absY w => w
  | .indX z => zpRead16 (z + s.x) s
  | .indY z => zpRead16 z s

/-- The effective address `ea` of R174 to R183. -/
def ea (o : Operand) (s : State) : Word :=
  match o with
  | .absX _ => baseAddr o s + zext s.x
  | .absY _ | .indY _ => baseAddr o s + zext s.y
  | .acc | .imm _ | .zp _ | .zpX _ | .zpY _ | .abs _ | .indX _ => baseAddr o s

/-- `cross` of R175: only Absolute-X, Absolute-Y and Indirect-Y can cross a page. -/
def crosses (o : Operand) (s : State) : Bool :=
  match o with
  | .absX _ | .absY _ | .indY _ => hi (baseAddr o s) != hi (ea o s)
  | .acc | .imm _ | .zp _ | .zpX _ | .zpY _ | .abs _ | .indX _ => false

/-- Whether an operand form has an effective address (R170, R172, R173). -/
def resolves : Operand → Bool
  | .acc | .imm _ => false
  | .zp _ | .zpX _ | .zpY _ | .abs _ | .absX _ | .absY _ | .indX _ | .indY _ => true

/-- `EA(mode)` (R170), with the fault of asking a form that has no effective address (R172; log 17). -/
def effAddr (o : Operand) (s : State) : Except Fault (Word × Bool) :=
  if resolves o then .ok (ea o s, crosses o s) else .error (raise (.invalidAddressingModeUse o.mode) s)

/-- `Load(mode)` (R185) with the page-cross penalty of instruction `i` (70_reset_and_hazards.md R562). -/
def load (i : Instr) (o : Operand) (s : State) : Except Fault (Byte × State) :=
  match o with
  | .imm b => .ok (b, s)
  | o =>
    match effAddr o s with
    | .error f => .error f
    | .ok (a, cross) =>
      match memRead a s with
      | .error f => .error f
      | .ok (m, s) => .ok (m, chargeCross i cross s)

/-- `Store(mode, v)` (R186). -/
def store (o : Operand) (v : Byte) (s : State) : Except Fault State :=
  match effAddr o s with
  | .error f => .error f
  | .ok (a, _) => memWrite a v s

/-- `RMW(mode, f)` (R187): returns the byte read, and the state after the write. -/
def rmw (o : Operand) (f : Byte → Byte) (s : State) : Except Fault (Byte × State) :=
  match o with
  | .acc => .ok (s.a, s.setA (f s.a))
  | o =>
    match effAddr o s with
    | .error e => .error e
    | .ok (a, _) =>
      match memRead a s with
      | .error e => .error e
      | .ok (v, s) =>
        match memWrite a (f v) s with
        | .error e => .error e
        | .ok s => .ok (v, s)

/-- `JmpIndRead16(ptr)` (R181): the high byte comes from the page of `ptr`. -/
def jmpIndHigh (ptr : Word) : Word := (ptr &&& 0xFF00) ||| ((ptr + 1) &&& 0x00FF)

/-- The target read through `ptr`, low byte first (R181). -/
def jmpIndRead16 (ptr : Word) (s : State) : Except Fault (Word × State) :=
  match memRead ptr s with
  | .error f => .error f
  | .ok (l, s) =>
    match memRead (jmpIndHigh ptr) s with
    | .error f => .error f
    | .ok (h, s) => .ok (w16 h l, s)

/-! ## Instruction shapes -/

/-- An instruction that loads its operand and goes on with it. -/
def onLoad (i : Instr) (o : Operand) (s : State) (k : Byte → State → State) : Host.Outcome State Fault Refusal :=
  match load i o s with
  | .error f => .fault f
  | .ok (m, s) => .next (k m s)

/-- A read-modify-write instruction that goes on with the byte it read. -/
def onRmw (o : Operand) (f : Byte → Byte) (s : State) (k : Byte → State → State) : Host.Outcome State Fault Refusal :=
  match rmw o f s with
  | .error e => .fault e
  | .ok (v, s) => .next (k v s)

/-- An instruction that only stores a byte. -/
def onStore (o : Operand) (v : Byte) (s : State) : Host.Outcome State Fault Refusal := outcome (store o v s)

/-- The byte an unstable store writes (46_undocumented.md R421): `r & (hi(base) +8 1)`, or a free value under
`UNSTABLE_STORE = any` (log 10). -/
def unstableByte (o : Operand) (r : Byte) (s : State) : Byte :=
  match s.params.unstableStore with
  | .formula => r &&& (hi (baseAddr o s) + 1)
  | .any => Config.unstableByte s.draws

/-- The free value of an unstable store used up (log 11). -/
def unstableDraw (s : State) : State :=
  match s.params.unstableStore with
  | .formula => s
  | .any => s.draw

/-- `UnstableStore(mode, r)` (R421). -/
def unstableStore (o : Operand) (r : Byte) (s : State) : Host.Outcome State Fault Refusal :=
  outcome (store o (unstableByte o r s) (unstableDraw s))

/-- The target of a branch, `PC +16 sext8(off)` (R184). -/
def branchTarget (off : Byte) (s : State) : Word := s.pc + sext8 off

/-- `Branch(cond)` (44_control_flow.md R300). -/
def branch (cond : Bool) (off : Byte) (s : State) : Host.Outcome State Fault Refusal :=
  if cond then
    let target := branchTarget off s
    .next ((s.tick (if hi s.pc != hi target then 2 else 1)).setPC target)
  else .next s

end Sys2Proof.Machine
end

