-- ==== Sys2Proof/Machine/Arith.lean ====
section
/-! DEFINITION. Arithmetic, logic, compare, bit test, increment and decrement (42_arithmetic_logic.md). -/

namespace Sys2Proof.Machine

/-- `A <- A + M + C` with its flags (R234); shared with RRA (46_undocumented.md R374). -/
def State.addToA (s : State) (m : Byte) (cin : Bool) : State :=
  (s.setA (addCore s.a m cin).1).setP (s.p.setArith (addCore s.a m cin))

/-- `A <- A - M - (1 - C)` with its flags (R235); shared with SBC 0xEB and ISB (46_undocumented.md R383, R378). -/
def State.subFromA (s : State) (m : Byte) : State :=
  (s.setA (subCore s.a m s.p.c).1).setP (s.p.setArith (subCore s.a m s.p.c))

/-- `A <- v; SetNZ(A)`. -/
def State.setANZ (s : State) (v : Byte) : State := (s.setA v).setNZ v

/-- ADC (R234). -/
def execAdc (o : Operand) (s : State) : Host.Outcome State Fault Refusal :=
  onLoad (.adc o) o s fun m s => s.addToA m s.p.c

/-- SBC (R235). -/
def execSbc (o : Operand) (s : State) : Host.Outcome State Fault Refusal :=
  onLoad (.sbc o) o s fun m s => s.subFromA m

/-- AND (R236). -/
def execAnd (o : Operand) (s : State) : Host.Outcome State Fault Refusal :=
  onLoad (.and o) o s fun m s => s.setANZ (s.a &&& m)

/-- ORA (R237). -/
def execOra (o : Operand) (s : State) : Host.Outcome State Fault Refusal :=
  onLoad (.ora o) o s fun m s => s.setANZ (s.a ||| m)

/-- EOR (R238). -/
def execEor (o : Operand) (s : State) : Host.Outcome State Fault Refusal :=
  onLoad (.eor o) o s fun m s => s.setANZ (s.a ^^^ m)

/-- CMP (R239). -/
def execCmp (o : Operand) (s : State) : Host.Outcome State Fault Refusal :=
  onLoad (.cmp o) o s fun m s => s.setP (s.p.compare s.a m)

/-- CPX (R240). -/
def execCpx (o : Operand) (s : State) : Host.Outcome State Fault Refusal :=
  onLoad (.cpx o) o s fun m s => s.setP (s.p.compare s.x m)

/-- CPY (R241). -/
def execCpy (o : Operand) (s : State) : Host.Outcome State Fault Refusal :=
  onLoad (.cpy o) o s fun m s => s.setP (s.p.compare s.y m)

/-- BIT (R242). -/
def execBit (o : Operand) (s : State) : Host.Outcome State Fault Refusal :=
  onLoad (.bit o) o s fun m s => s.setP (s.p.bitTest s.a m)

/-- INC (R243). -/
def execInc (o : Operand) (s : State) : Host.Outcome State Fault Refusal :=
  onRmw o (· + 1) s fun v s => s.setNZ (v + 1)

/-- DEC (R244). -/
def execDec (o : Operand) (s : State) : Host.Outcome State Fault Refusal :=
  onRmw o (· - 1) s fun v s => s.setNZ (v - 1)

/-- INX (R245). -/
def execInx (s : State) : Host.Outcome State Fault Refusal := .next ((s.setX (s.x + 1)).setNZ (s.x + 1))

/-- INY (R246). -/
def execIny (s : State) : Host.Outcome State Fault Refusal := .next ((s.setY (s.y + 1)).setNZ (s.y + 1))

/-- DEX (R247). -/
def execDex (s : State) : Host.Outcome State Fault Refusal := .next ((s.setX (s.x - 1)).setNZ (s.x - 1))

/-- DEY (R248). -/
def execDey (s : State) : Host.Outcome State Fault Refusal := .next ((s.setY (s.y - 1)).setNZ (s.y - 1))

end Sys2Proof.Machine
end

