-- ==== Sys2Proof/Machine/Control.lean ====
section
/-! DEFINITION. Control transfer (44_control_flow.md). PC already holds the address of the next instruction. -/

namespace Sys2Proof.Machine

/-- BCC (R301). -/
def execBcc (off : Byte) (s : State) : Host.Outcome State Fault Refusal := branch (!s.p.c) off s

/-- BCS (R302). -/
def execBcs (off : Byte) (s : State) : Host.Outcome State Fault Refusal := branch s.p.c off s

/-- BEQ (R303). -/
def execBeq (off : Byte) (s : State) : Host.Outcome State Fault Refusal := branch s.p.z off s

/-- BNE (R304). -/
def execBne (off : Byte) (s : State) : Host.Outcome State Fault Refusal := branch (!s.p.z) off s

/-- BMI (R305). -/
def execBmi (off : Byte) (s : State) : Host.Outcome State Fault Refusal := branch s.p.n off s

/-- BPL (R306). -/
def execBpl (off : Byte) (s : State) : Host.Outcome State Fault Refusal := branch (!s.p.n) off s

/-- BVC (R307). -/
def execBvc (off : Byte) (s : State) : Host.Outcome State Fault Refusal := branch (!s.p.v) off s

/-- BVS (R308). -/
def execBvs (off : Byte) (s : State) : Host.Outcome State Fault Refusal := branch s.p.v off s

/-- JMP absolute (R310). -/
def execJmp (target : Word) (s : State) : Host.Outcome State Fault Refusal := .next (s.setPC target)

/-- JMP indirect (R311). -/
def execJmpInd (ptr : Word) (s : State) : Host.Outcome State Fault Refusal :=
  match jmpIndRead16 ptr s with
  | .error f => .fault f
  | .ok (target, s) => .next (s.setPC target)

/-- JSR (R312). -/
def execJsr (target : Word) (s : State) : Host.Outcome State Fault Refusal :=
  .next ((s.push16 (s.pc - 1)).setPC target)

/-- RTS (R313). -/
def execRts (s : State) : Host.Outcome State Fault Refusal := .next ((s.setPC (s.popWord + 1)).popped16)

/-- RTI (R314). -/
def execRti (s : State) : Host.Outcome State Fault Refusal := .next (returnFromInterrupt s)

/-- BRK (R330): the normal halt. -/
def execBrk (s : State) : Host.Outcome State Fault Refusal := .next (s.setRun .halted)

end Sys2Proof.Machine
end

