-- ==== Sys2Proof/Machine/LoadStore.lean ====
section
/-! DEFINITION. Loads, stores and register transfers (41_load_store_transfer.md). -/

namespace Sys2Proof.Machine

/-- LDA (R200). -/
def execLda (o : Operand) (s : State) : Host.Outcome State Fault Refusal :=
  onLoad (.lda o) o s fun m s => (s.setA m).setNZ m

/-- LDX (R201). -/
def execLdx (o : Operand) (s : State) : Host.Outcome State Fault Refusal :=
  onLoad (.ldx o) o s fun m s => (s.setX m).setNZ m

/-- LDY (R202). -/
def execLdy (o : Operand) (s : State) : Host.Outcome State Fault Refusal :=
  onLoad (.ldy o) o s fun m s => (s.setY m).setNZ m

/-- STA (R203). -/
def execSta (o : Operand) (s : State) : Host.Outcome State Fault Refusal := onStore o s.a s

/-- STX (R204). -/
def execStx (o : Operand) (s : State) : Host.Outcome State Fault Refusal := onStore o s.x s

/-- STY (R205). -/
def execSty (o : Operand) (s : State) : Host.Outcome State Fault Refusal := onStore o s.y s

/-- TAX (R206). -/
def execTax (s : State) : Host.Outcome State Fault Refusal := .next ((s.setX s.a).setNZ s.a)

/-- TAY (R207). -/
def execTay (s : State) : Host.Outcome State Fault Refusal := .next ((s.setY s.a).setNZ s.a)

/-- TXA (R208). -/
def execTxa (s : State) : Host.Outcome State Fault Refusal := .next ((s.setA s.x).setNZ s.x)

/-- TYA (R209). -/
def execTya (s : State) : Host.Outcome State Fault Refusal := .next ((s.setA s.y).setNZ s.y)

/-- TSX (R210). -/
def execTsx (s : State) : Host.Outcome State Fault Refusal := .next ((s.setX s.sp).setNZ s.sp)

/-- TXS (R211): writes no flag. -/
def execTxs (s : State) : Host.Outcome State Fault Refusal := .next (s.setSP s.x)

end Sys2Proof.Machine
end

