-- ==== Sys2Proof/Machine/Shift.lean ====
section
/-! DEFINITION. Shifts and rotates, accumulator and memory forms (43_shift_rotate.md). -/

namespace Sys2Proof.Machine

/-- The shape of R280: read-modify-write with a shift core, then C, N and Z. -/
def shiftBy (o : Operand) (core : Byte → Byte × Bool) (s : State) : Host.Outcome State Fault Refusal :=
  onRmw o (fun v => (core v).1) s fun v s => s.setP (s.p.setShift (core v))

/-- ASL (R281). -/
def execAsl (o : Operand) (s : State) : Host.Outcome State Fault Refusal := shiftBy o aslCore s

/-- LSR (R282). -/
def execLsr (o : Operand) (s : State) : Host.Outcome State Fault Refusal := shiftBy o lsrCore s

/-- ROL (R283): the carry going in is the one before the instruction. -/
def execRol (o : Operand) (s : State) : Host.Outcome State Fault Refusal := shiftBy o (fun v => rolCore v s.p.c) s

/-- ROR (R284): the carry going in is the one before the instruction. -/
def execRor (o : Operand) (s : State) : Host.Outcome State Fault Refusal := shiftBy o (fun v => rorCore v s.p.c) s

end Sys2Proof.Machine
end

