-- ==== Sys2Proof/Machine/StackFlags.lean ====
section
/-! DEFINITION. Stack, flag and no-operation instructions (45_stack_flags_misc.md). -/

namespace Sys2Proof.Machine

/-- PHA (R343). -/
def execPha (s : State) : Host.Outcome State Fault Refusal := .next (s.push s.a)

/-- PHP (R344): bits 5 and 4 pushed as 1. -/
def execPhp (s : State) : Host.Outcome State Fault Refusal := .next (s.push s.p.phpByte)

/-- PLA (R345). -/
def execPla (s : State) : Host.Outcome State Fault Refusal :=
  .next ((s.popped.setA s.popByte).setNZ s.popByte)

/-- PLP (R346). -/
def execPlp (s : State) : Host.Outcome State Fault Refusal := .next (s.popped.setP (Flags.popped s.popByte))

/-- CLC (R347). -/
def execClc (s : State) : Host.Outcome State Fault Refusal := .next (s.setP { s.p with c := false })

/-- CLD (R348). -/
def execCld (s : State) : Host.Outcome State Fault Refusal := .next (s.setP { s.p with d := false })

/-- CLI (R349). -/
def execCli (s : State) : Host.Outcome State Fault Refusal := .next (s.setP { s.p with i := false })

/-- CLV (R350). -/
def execClv (s : State) : Host.Outcome State Fault Refusal := .next (s.setP { s.p with v := false })

/-- SEC (R351). -/
def execSec (s : State) : Host.Outcome State Fault Refusal := .next (s.setP { s.p with c := true })

/-- SED (R352). -/
def execSed (s : State) : Host.Outcome State Fault Refusal := .next (s.setP { s.p with d := true })

/-- SEI (R353). -/
def execSei (s : State) : Host.Outcome State Fault Refusal := .next (s.setP { s.p with i := true })

/-- NOP 0xEA (R354): the fetch has already advanced PC. -/
def execNop (s : State) : Host.Outcome State Fault Refusal := .next s

end Sys2Proof.Machine
end

