-- ==== Sys2Proof/Machine/Undocumented.lean ====
section
/-! DEFINITION. The undocumented instructions (46_undocumented.md). -/

namespace Sys2Proof.Machine

/-- SLO (R371): shift left, then OR. -/
def execSlo (o : Operand) (s : State) : Host.Outcome State Fault Refusal :=
  onRmw o (fun v => (aslCore v).1) s fun v s =>
    (s.setP (s.p.setC (aslCore v).2)).setANZ (s.a ||| (aslCore v).1)

/-- RLA (R372): rotate left, then AND. -/
def execRla (o : Operand) (s : State) : Host.Outcome State Fault Refusal :=
  let core := fun v => rolCore v s.p.c
  onRmw o (fun v => (core v).1) s fun v s =>
    (s.setP (s.p.setC (core v).2)).setANZ (s.a &&& (core v).1)

/-- SRE (R373): shift right, then EOR. -/
def execSre (o : Operand) (s : State) : Host.Outcome State Fault Refusal :=
  onRmw o (fun v => (lsrCore v).1) s fun v s =>
    (s.setP (s.p.setC (lsrCore v).2)).setANZ (s.a ^^^ (lsrCore v).1)

/-- RRA (R374): rotate right, then add with the carry of the rotate. -/
def execRra (o : Operand) (s : State) : Host.Outcome State Fault Refusal :=
  let core := fun v => rorCore v s.p.c
  onRmw o (fun v => (core v).1) s fun v s => s.addToA (core v).1 (core v).2

/-- DCP (R377): decrement, then compare. -/
def execDcp (o : Operand) (s : State) : Host.Outcome State Fault Refusal :=
  onRmw o (· - 1) s fun v s => s.setP (s.p.compare s.a (v - 1))

/-- ISB (R378): increment, then subtract with carry. -/
def execIsb (o : Operand) (s : State) : Host.Outcome State Fault Refusal :=
  onRmw o (· + 1) s fun v s => s.subFromA (v + 1)

/-- SAX (R375): store A AND X. -/
def execSax (o : Operand) (s : State) : Host.Outcome State Fault Refusal := onStore o (s.a &&& s.x) s

/-- LAX (R376): load A and X. -/
def execLax (o : Operand) (s : State) : Host.Outcome State Fault Refusal :=
  onLoad (.lax o) o s fun m s => (s.setX m).setANZ m

/-- ANC (R379): AND, then N copied to C. Both opcode bytes do the same. -/
def execAnc (imm : Byte) (s : State) : Host.Outcome State Fault Refusal :=
  .next ((s.setA (s.a &&& imm)).setP (s.p.setAnc (s.a &&& imm)))

/-- ALR (R380): AND, then shift right. -/
def execAlr (imm : Byte) (s : State) : Host.Outcome State Fault Refusal :=
  let r := lsrCore (s.a &&& imm)
  .next ((s.setA r.1).setP (s.p.setShift r))

/-- ARR (R381): AND, then rotate right, with its own C and V. -/
def execArr (imm : Byte) (s : State) : Host.Outcome State Fault Refusal :=
  let r := arrResult (s.a &&& imm) s.p.c
  .next ((s.setA r).setP (s.p.setArr r))

/-- AXS (R382): X = (A AND X) minus the immediate, C as a compare. -/
def execAxs (imm : Byte) (s : State) : Host.Outcome State Fault Refusal :=
  let t := s.a &&& s.x
  .next ((s.setX (t - imm)).setP (s.p.compare t imm))

/-- SBC 0xEB (R383): as SBC immediate. -/
def execSbcEB (imm : Byte) (s : State) : Host.Outcome State Fault Refusal := .next (s.subFromA imm)

/-- LAS (R384): memory AND SP into A, X and SP. -/
def execLas (base : Word) (s : State) : Host.Outcome State Fault Refusal :=
  onLoad (.las base) (.absY base) s fun m s => ((s.setX (m &&& s.sp)).setSP (m &&& s.sp)).setANZ (m &&& s.sp)

/-- XAA (R385). -/
def execXaa (imm : Byte) (s : State) : Host.Outcome State Fault Refusal :=
  .next (s.setANZ ((s.a ||| s.params.aneMagic) &&& s.x &&& imm))

/-- LXA (R386). -/
def execLxa (imm : Byte) (s : State) : Host.Outcome State Fault Refusal :=
  let t := (s.a ||| s.params.lxaMagic) &&& imm
  .next ((s.setX t).setANZ t)

/-- AHX (R387). -/
def execAhx (o : Operand) (s : State) : Host.Outcome State Fault Refusal := unstableStore o (s.a &&& s.x) s

/-- SHX (R388). -/
def execShx (base : Word) (s : State) : Host.Outcome State Fault Refusal := unstableStore (.absY base) s.x s

/-- SHY (R389). -/
def execShy (base : Word) (s : State) : Host.Outcome State Fault Refusal := unstableStore (.absX base) s.y s

/-- TAS (R390): SP = A AND X, written even if the store faults. -/
def execTas (base : Word) (s : State) : Host.Outcome State Fault Refusal :=
  unstableStore (.absY base) (s.a &&& s.x) (s.setSP (s.a &&& s.x))

/-- NOP immediate (R391): the operand byte was fetched and is discarded. -/
def execNopImmediate (s : State) : Host.Outcome State Fault Refusal := .next s

/-- NOP with a memory operand (R392): the effective address is read, with its side effects, and the byte discarded. -/
def execNopMemory (code : Byte) (o : Operand) (s : State) : Host.Outcome State Fault Refusal :=
  onLoad (.nopMemory code o) o s fun _ s => s

/-- NOP implied (R393). -/
def execNopImplied (s : State) : Host.Outcome State Fault Refusal := .next s

/-- JAM (R420): stuck, or a NOP, as `JAM_POLICY` says. -/
def execJam (s : State) : Host.Outcome State Fault Refusal :=
  match s.params.jamPolicy with
  | .jam => .next (s.setRun .jammed)
  | .nop => .next s

end Sys2Proof.Machine
end

