-- ==== Sys2Proof/Machine/Dispatch.lean ====
section
/-! DEFINITION. Which meaning each instruction has. -/

namespace Sys2Proof.Machine

/-- "execute the rule" of 60_exceptions.md R440: what the fetched instruction does, PC being past its bytes and its base cycles
charged (log 15). -/
def exec (i : Instr) (s : State) : Host.Outcome State Fault Refusal :=
  match i with
  -- 41_load_store_transfer.md
  | .lda o => Sys2Proof.Machine.execLda o s
  | .ldx o => Sys2Proof.Machine.execLdx o s
  | .ldy o => Sys2Proof.Machine.execLdy o s
  | .sta o => Sys2Proof.Machine.execSta o s
  | .stx o => Sys2Proof.Machine.execStx o s
  | .sty o => Sys2Proof.Machine.execSty o s
  | .tax => Sys2Proof.Machine.execTax s
  | .tay => Sys2Proof.Machine.execTay s
  | .txa => Sys2Proof.Machine.execTxa s
  | .tya => Sys2Proof.Machine.execTya s
  | .tsx => Sys2Proof.Machine.execTsx s
  | .txs => Sys2Proof.Machine.execTxs s
  -- 42_arithmetic_logic.md
  | .adc o => Sys2Proof.Machine.execAdc o s
  | .sbc o => Sys2Proof.Machine.execSbc o s
  | .and o => Sys2Proof.Machine.execAnd o s
  | .ora o => Sys2Proof.Machine.execOra o s
  | .eor o => Sys2Proof.Machine.execEor o s
  | .cmp o => Sys2Proof.Machine.execCmp o s
  | .cpx o => Sys2Proof.Machine.execCpx o s
  | .cpy o => Sys2Proof.Machine.execCpy o s
  | .bit o => Sys2Proof.Machine.execBit o s
  | .inc o => Sys2Proof.Machine.execInc o s
  | .dec o => Sys2Proof.Machine.execDec o s
  | .inx => Sys2Proof.Machine.execInx s
  | .iny => Sys2Proof.Machine.execIny s
  | .dex => Sys2Proof.Machine.execDex s
  | .dey => Sys2Proof.Machine.execDey s
  -- 43_shift_rotate.md
  | .asl o => Sys2Proof.Machine.execAsl o s
  | .lsr o => Sys2Proof.Machine.execLsr o s
  | .rol o => Sys2Proof.Machine.execRol o s
  | .ror o => Sys2Proof.Machine.execRor o s
  -- 44_control_flow.md
  | .bcc off => Sys2Proof.Machine.execBcc off s
  | .bcs off => Sys2Proof.Machine.execBcs off s
  | .beq off => Sys2Proof.Machine.execBeq off s
  | .bne off => Sys2Proof.Machine.execBne off s
  | .bmi off => Sys2Proof.Machine.execBmi off s
  | .bpl off => Sys2Proof.Machine.execBpl off s
  | .bvc off => Sys2Proof.Machine.execBvc off s
  | .bvs off => Sys2Proof.Machine.execBvs off s
  | .jmp target => Sys2Proof.Machine.execJmp target s
  | .jmpInd ptr => Sys2Proof.Machine.execJmpInd ptr s
  | .jsr target => Sys2Proof.Machine.execJsr target s
  | .rts => Sys2Proof.Machine.execRts s
  | .rti => Sys2Proof.Machine.execRti s
  | .brk => Sys2Proof.Machine.execBrk s
  -- 45_stack_flags_misc.md
  | .pha => Sys2Proof.Machine.execPha s
  | .php => Sys2Proof.Machine.execPhp s
  | .pla => Sys2Proof.Machine.execPla s
  | .plp => Sys2Proof.Machine.execPlp s
  | .clc => Sys2Proof.Machine.execClc s
  | .cld => Sys2Proof.Machine.execCld s
  | .cli => Sys2Proof.Machine.execCli s
  | .clv => Sys2Proof.Machine.execClv s
  | .sec => Sys2Proof.Machine.execSec s
  | .sed => Sys2Proof.Machine.execSed s
  | .sei => Sys2Proof.Machine.execSei s
  | .nop => Sys2Proof.Machine.execNop s
  -- 46_undocumented.md
  | .slo o => Sys2Proof.Machine.execSlo o s
  | .rla o => Sys2Proof.Machine.execRla o s
  | .sre o => Sys2Proof.Machine.execSre o s
  | .rra o => Sys2Proof.Machine.execRra o s
  | .sax o => Sys2Proof.Machine.execSax o s
  | .lax o => Sys2Proof.Machine.execLax o s
  | .dcp o => Sys2Proof.Machine.execDcp o s
  | .isb o => Sys2Proof.Machine.execIsb o s
  | .anc _ imm => Sys2Proof.Machine.execAnc imm s
  | .alr imm => Sys2Proof.Machine.execAlr imm s
  | .arr imm => Sys2Proof.Machine.execArr imm s
  | .axs imm => Sys2Proof.Machine.execAxs imm s
  | .sbcEB imm => Sys2Proof.Machine.execSbcEB imm s
  | .las base => Sys2Proof.Machine.execLas base s
  | .xaa imm => Sys2Proof.Machine.execXaa imm s
  | .lxa imm => Sys2Proof.Machine.execLxa imm s
  | .ahx o => Sys2Proof.Machine.execAhx o s
  | .shx base => Sys2Proof.Machine.execShx base s
  | .shy base => Sys2Proof.Machine.execShy base s
  | .tas base => Sys2Proof.Machine.execTas base s
  | .nopImmediate _ _ => Sys2Proof.Machine.execNopImmediate s
  | .nopMemory code o => Sys2Proof.Machine.execNopMemory code o s
  | .nopImplied _ => Sys2Proof.Machine.execNopImplied s
  | .jam _ => Sys2Proof.Machine.execJam s

end Sys2Proof.Machine
end

