-- ==== Sys2Proof/Machine/Step.lean ====
section
/-! DEFINITION. One CPU step (60_exceptions.md R440), and the state in which the next step runs a given instruction. -/

namespace Sys2Proof.Machine

/-- The instruction that was fetched, executed, and the step ended with its bus tick (R440). A fault ends the step without a
bus tick (R431). -/
def runInstr (i : Instr) (s : State) : Host.Outcome State Fault Refusal :=
  match exec i (chargeBase i s) with
  | .next s => .next (endStep s)
  | .fault f => .fault f
  | .refused r => .refused r

/-- `Step()` (R440). A Halted or Jammed CPU changes nothing; a Faulted one answers its fault again (log 6). -/
def step (s : State) : Host.Outcome State Fault Refusal :=
  match s.cpuRun with
  | .faulted info => .fault (.stopped info s)
  | .halted | .jammed => .next s
  | .running =>
    match fetchInstr (serviceNmi (s.setCtx StepCtx.idle)) with
    | .error f => .fault f
    | .ok (i, s) => runInstr i s

/-- Whether the byte at a CPU address can be placed: RAM or PRG ROM (20_memory.md R82). -/
def placeable (a : Word) : Bool := decide (a.toNat < 0x2000 ∨ 0x8000 ≤ a.toNat)

/-- The byte at a CPU address of RAM or PRG ROM set; for PRG this stands for another cartridge (log 2). -/
def placeByte (a : Word) (v : Byte) (s : State) : State :=
  match region s.prgSize a with
  | .ram i => s.setRam (s.ram.write i v)
  | .prg i => { s with prg := s.prg.write i v }
  | _ => s

/-- Bytes placed from an address on. -/
def placeBytes : Word → List Byte → State → State
  | _, [], s => s
  | a, b :: rest, s => placeBytes (a + 1) rest (placeByte a b s)

/-- The state ready to fetch at a place that can hold an instruction: Running, no NMI to take first, and PC moved to 0x0000 only
where the three bytes at PC are not all RAM or PRG (log 2). -/
def readyToFetch (s : State) : State :=
  let s := (s.setRun .running).setPpu { s.ppu with nmiPending := false }
  if placeable s.pc && placeable (s.pc + 1) && placeable (s.pc + 2) then s else s.setPC 0x0000

/-- The table word `w` of `nbits` bits, the bits above it zero, stored where the next step fetches. -/
def State.withFetchWord (s : State) (nbits w : Nat) : State :=
  let s := readyToFetch s
  placeBytes s.pc (tableBytes nbits w) s

end Sys2Proof.Machine
end

