-- ==== Sys2Proof/Machine/HostInterface.lean ====
section
/-! DEFINITION. What the host can do to the machine (60_exceptions.md R500 to R506, 70_reset_and_hazards.md R530 to R536):
construction, reset, the register and memory accessors, load and run. The register accessors for A, X, Y, SP and PC are
`State.setA` and its like and the fields themselves (R504). -/

namespace Sys2Proof.Machine

/-- The cartridge of R500. -/
structure Cartridge where
  prg : List Byte
  chr : List Byte
  mirroring : Mirroring
  mapper : Nat
  deriving DecidableEq, Repr

/-- `INIT_MEM`: what RAM, VRAM, palette and OAM hold at construction (00_scope.md R8, 92_eei_decisions.md D21; log 3). -/
structure InitMem where
  ram : Memory
  vram : Memory
  palette : Memory
  oam : Memory
  deriving DecidableEq, Repr

/-- `INIT_MEM = zero`. -/
def InitMem.zero : InitMem := ⟨[], [], [], []⟩

/-- The contents are canonical and lie inside each memory: what `INIT_MEM = any` ranges over. -/
def InitMem.ok (m : InitMem) : Bool :=
  m.ram.wf && m.ram.within 2048 && m.vram.wf && m.vram.within 2048 && m.palette.wf && m.palette.within 32
    && m.oam.wf && m.oam.within 256

/-- `PRG_SIZE` of a PRG buffer of `n` bytes, if construction accepts it (R536). -/
def prgSizeOf (n : Nat) : Option PrgSize := if n = 16384 then some .k16 else if n = 32768 then some .k32 else none

/-- `reset()` (R530, R534): registers, PC and the run state; nothing else (R532). -/
def hostReset (s : State) : State :=
  { s with
    a := 0x00
    x := 0x00
    y := 0x00
    sp := s.params.resetSP
    p := Flags.ofByte s.params.resetP
    pc := vector 0xFFFC s
    cpuRun := match s.cpuRun with
      | .halted | .jammed | .running => .running
      | .faulted info => .faulted info }

/-- The state construction builds before its reset: the construction column of 10_state.md R79. -/
def preReset (cart : Cartridge) (size : PrgSize) (par : Params) (init : InitMem) (handler : FrameHandler) : State :=
  { State.reset with
    ram := init.ram
    prg := Memory.ofBytesFrom 0 cart.prg
    prgSize := size
    params := par
    handler := handler
    ppu := { Ppu.reset with
      chr := Memory.ofBytesFrom 0 cart.chr
      mirroring := cart.mirroring
      vram := init.vram
      palette := init.palette
      oam := init.oam } }

/-- Construction (R500, R535), with the host's per-frame handler (R502); `none` where it refuses the cartridge (R536). -/
def construct (cart : Cartridge) (par : Params) (init : InitMem) (handler : FrameHandler) : Option State :=
  match prgSizeOf cart.prg.length with
  | none => none
  | some size =>
    if cart.chr.length = 8192 ∧ cart.mapper = 0 then some (hostReset (preReset cart size par init handler)) else none

/-- The host's write of P, all eight bits (R504). -/
def hostSetP (v : Byte) (s : State) : State := s.setP (Flags.ofByte v)

/-- The host's read of a byte: `MemRead`, no cycles; a fault refuses it and changes nothing (R505; log 19). -/
def hostRead (a : Word) (s : State) : Except FaultInfo (Byte × State) :=
  match memRead a s with
  | .error (.stopped info _) => .error info
  | .ok (v, t) => .ok (v, t.setCtx s.ctx)

/-- The host's write of a byte: `MemWrite`, no cycles; a fault refuses it and changes nothing (R505; log 19). -/
def hostWrite (a : Word) (v : Byte) (s : State) : Except FaultInfo State :=
  match memWrite a v s with
  | .error (.stopped info _) => .error info
  | .ok t => .ok (t.setCtx s.ctx)

/-- `load(bytes, origin)`: the fault of the first byte refused, if any, and the state with the bytes before it written (R506). -/
def hostLoad : List Byte → Word → State → Option FaultInfo × State
  | [], _, s => (none, s)
  | b :: rest, a, s =>
    match hostWrite a b s with
    | .error info => (some info, s)
    | .ok s => hostLoad rest (a + 1) s

/-- `run()` for at most `n` steps: stops where `cpu_run` is no longer Running (R503). -/
def hostRun : Nat → State → Host.Outcome State Fault Refusal
  | 0, s => .next s
  | n + 1, s =>
    if s.cpuRun = .running then
      match step s with
      | .next s => hostRun n s
      | .fault f => .fault f
      | .refused r => .refused r
    else .next s

end Sys2Proof.Machine
end

