-- ==== Sys2Proof/Safety.lean ====
section
/-! DEFINITION. The terms statements are written in: the invariant of the state, when an access completes, what a fault leaves, a
normal run, and the shapes of statement that the rules of one kind of instruction share. -/

namespace Sys2Proof.Machine

/-! ## The invariant -/

/-- The PPU's memories canonical and inside their sizes (R60 to R63), the counters in range (R71, R72). -/
abbrev Ppu.Inv (p : Ppu) : Prop :=
  (p.chr.wf = true ∧ p.chr.within 8192 = true) ∧ (p.vram.wf = true ∧ p.vram.within 2048 = true) ∧
  (p.palette.wf = true ∧ p.palette.within 32 = true) ∧ (p.oam.wf = true ∧ p.oam.within 256 = true) ∧
  p.scanline ≤ 261 ∧ p.dot ≤ 340

/-- Every memory canonical and inside its size (R50, R51), the PPU's invariant, and no step under way (R47). -/
abbrev State.Inv (s : State) : Prop :=
  (s.ram.wf = true ∧ s.ram.within 2048 = true) ∧ (s.prg.wf = true ∧ s.prg.within s.prgSize.bytes = true) ∧
  s.ppu.Inv ∧ s.ctx = StepCtx.idle

/-! ## Accesses that complete, and faults -/

/-- A CPU read of `a` does not fault: `a` is not a write-only PPU register or mirror, or the policy is `any` (20_memory.md R98). -/
abbrev ReadOk (a : Word) (s : State) : Prop :=
  ¬ (0x2000 ≤ a.toNat ∧ a.toNat < 0x4000 ∧
     (a.toNat % 8 = 0 ∨ a.toNat % 8 = 1 ∨ a.toNat % 8 = 3 ∨ a.toNat % 8 = 5 ∨ a.toNat % 8 = 6) ∧
     s.params.woRead = .fault)

/-- A CPU write of `v` to `a` does not fault: not PRG ROM; PPU status and CHR only where their policy ignores the write; an OAM
DMA only from a page whose reads do not fault (20_memory.md R98, 60_exceptions.md R490). -/
abbrev WriteOk (a : Word) (v : Byte) (s : State) : Prop :=
  a.toNat < 0x8000 ∧
  (0x2000 ≤ a.toNat → a.toNat < 0x4000 → a.toNat % 8 = 2 → s.params.statusWrite = .ignore) ∧
  (0x2000 ≤ a.toNat → a.toNat < 0x4000 → a.toNat % 8 = 7 → 0x2000 ≤ s.ppu.v.toNat ∨ s.params.chrWrite = .ignore) ∧
  (a.toNat = 0x4014 → v.toNat < 0x20 ∨ 0x40 ≤ v.toNat ∨ s.params.woRead = .any)

/-- The fault with cause `c` raised in state `s`: its info, and the state it leaves, with `cpu_run` Faulted and nothing else
changed but the step being over (60_exceptions.md R430, R431). -/
def faultAt (c : FaultCause) (s : State) : Fault :=
  .stopped ⟨c, s.ctx.opAddr, s.ctx.opcode⟩
    { s with cpuRun := .faulted ⟨c, s.ctx.opAddr, s.ctx.opcode⟩, ctx := { cyc := 0, opAddr := 0, opcode := none } }

/-- The operand of a loading instruction can be read: it is an immediate, or the read of its effective address completes. -/
abbrev OperandOk (o : Operand) (s : State) : Prop := o ≠ .acc ∧ (o.mode = .immediate ∨ ReadOk (ea o s) s)

/-- The operand byte of a loading instruction (40_addressing.md R173, R185). -/
def operandByte (o : Operand) (s : State) : Byte :=
  match o with
  | .imm b => b
  | o => readByte (ea o s) s

/-- The state once the operand of loading instruction `i` is read: the read's own effect, and one cycle more where the row is
marked `+p` and the address crossed a page (40_addressing.md R185, 70_reset_and_hazards.md R562). -/
def afterOperand (i : Instr) (o : Operand) (s : State) : State :=
  match o with
  | .imm _ => s
  | o =>
    let t := afterRead (ea o s) s
    if i.crossPenalty && crosses o s then { t with ctx := { t.ctx with cyc := t.ctx.cyc + 1 } } else t

/-! ## What an access leaves unchanged -/

/-- What no access of memory changes: the CPU's registers, the run state, the ROMs, the parameters, the host's handler, the counters
of the bus and of the PPU's timing, the frame events, and the sprite bits. -/
def SameCore (s t : State) : Prop :=
  t.a = s.a ∧ t.x = s.x ∧ t.y = s.y ∧ t.sp = s.sp ∧ t.pc = s.pc ∧ t.p = s.p ∧ t.cpuRun = s.cpuRun ∧
  t.ctx.opAddr = s.ctx.opAddr ∧ t.ctx.opcode = s.ctx.opcode ∧ t.prg = s.prg ∧ t.prgSize = s.prgSize ∧
  t.busCycles = s.busCycles ∧ t.params = s.params ∧ t.frameEvents = s.frameEvents ∧ t.ppu.chr = s.ppu.chr ∧
  t.ppu.mirroring = s.ppu.mirroring ∧ t.ppu.scanline = s.ppu.scanline ∧ t.ppu.dot = s.ppu.dot ∧
  t.ppu.spriteZero = s.ppu.spriteZero ∧ t.ppu.overflow = s.ppu.overflow ∧ t.ppu.oracleIndex = s.ppu.oracleIndex ∧
  t.handler = s.handler

/-- Two CPU addresses reach the same byte of work RAM (20_memory.md R83). -/
abbrev SameRamByte (a b : Word) : Prop := a.toNat < 0x2000 ∧ b.toNat < 0x2000 ∧ a.toNat % 0x800 = b.toNat % 0x800

/-- The frame of a store to CPU address `a`: `SameCore`, and every RAM and PRG byte other than the one stored reads as before. -/
def StoreFrame (a : Word) (s t : State) : Prop :=
  SameCore s t ∧ ∀ b : Word, placeable b = true → ¬ SameRamByte a b → readByte b t = readByte b s

/-! ## Results -/

/-- The flags with Z and N of a result byte (42_arithmetic_logic.md R230). -/
def withNZ (f : Flags) (r : Byte) : Flags := { f with z := decide (r.toNat = 0), n := decide (128 ≤ r.toNat) }

/-- The result byte of `AddCore` (R231). -/
def sumByte (a m : Byte) (c : Bool) : Byte := BitVec.ofNat 8 ((a.toNat + m.toNat + c.toNat) % 256)

/-- A with `AddCore(A, m, c)` and the four flags ADC writes (R231, R234): C where the sum exceeds 255, V where the sign bits of
the two inputs agree and that of the result differs. -/
def withSum (t : State) (m : Byte) (c : Bool) : State :=
  let r := sumByte t.a m c
  { t with
    a := r
    p := withNZ { t.p with
      c := decide (255 < t.a.toNat + m.toNat + c.toNat)
      v := decide ((128 ≤ t.a.toNat ↔ 128 ≤ m.toNat) ∧ ¬ (128 ≤ r.toNat ↔ 128 ≤ t.a.toNat)) } r }

/-- A with `SubCore(A, m, C)` and its flags: the sum with the complement `0xFF - m` (R232, R235). -/
def withDifference (t : State) (m : Byte) : State := withSum t (255 - m) t.p.c

/-- The flags after `Compare(r, m)` (R233). -/
def withCompare (f : Flags) (r m : Byte) : Flags := withNZ { f with c := decide (m.toNat ≤ r.toNat) } (r - m)

/-- The byte shifted left with `c` entering bit 0 (43_shift_rotate.md R280). -/
def shiftedLeft (v : Byte) (c : Bool) : Byte := BitVec.ofNat 8 ((v.toNat * 2 + c.toNat) % 256)

/-- The byte shifted right with `c` entering bit 7 (R280). -/
def shiftedRight (v : Byte) (c : Bool) : Byte := BitVec.ofNat 8 (v.toNat / 2 + 128 * c.toNat)

/-- Bit 7 of a byte: what a left shift moves out (R280). -/
def topBit (v : Byte) : Bool := decide (128 ≤ v.toNat)

/-- Bit 0 of a byte: what a right shift moves out (R280). -/
def lowBit (v : Byte) : Bool := decide (v.toNat % 2 = 1)

/-- The flags after a shift that moved `c` out and made `r`: `P.C <- c; SetNZ(r)` (R280). -/
def withShift (f : Flags) (c : Bool) (r : Byte) : Flags := withNZ { f with c := c } r

/-! ## Shapes of statement -/

/-- The rows of an instruction with several modes: which modes it has, and for each its opcode byte, base cycles and `+p` mark
(30_encoding.md R156, and the "Encoding" and "Cycles" lines of the instruction's rule). -/
def HasRows (k : Operand → Instr) (rows : List (Mode × Byte × Nat × Bool)) : Prop :=
  ∀ o : Operand,
    match rows.find? (fun r => decide (r.1 = o.mode)) with
    | some (_, code, cycles, cross) =>
      (k o).wellFormed = true ∧ (k o).opcode? = some code ∧ (k o).baseCycles = cycles ∧ (k o).crossPenalty = cross
    | none => (k o).wellFormed = false

/-- The row of an instruction with one mode: its opcode byte, length, base cycles and `+p` mark. -/
def HasRow (i : Instr) (code : Byte) (length cycles : Nat) (cross : Bool) : Prop :=
  i.wellFormed = true ∧ i.opcode? = some code ∧ i.length = length ∧ i.baseCycles = cycles ∧ i.crossPenalty = cross

/-- A loading instruction, in every mode it has: it goes to `f m t` for the operand byte `m` and the state `t` after the read, or
stops with the read's fault. -/
def LoadSpec (k : Operand → Instr) (f : Byte → State → State) : Prop :=
  ∀ (o : Operand) (s : State), (k o).wellFormed = true →
    (OperandOk o s → exec (k o) s = .next (f (operandByte o s) (afterOperand (k o) o s))) ∧
    (¬ OperandOk o s → exec (k o) s = .fault (faultAt (.ppuWriteOnlyRead (ea o s)) s))

/-- A storing instruction, in every mode it has: its next state is the one the write of `v s` to its effective address gives, with
the frame of that store, or it stops with the write's fault. -/
def StoreSpec (k : Operand → Instr) (v : State → Byte) : Prop :=
  ∀ (o : Operand) (s : State), (k o).wellFormed = true →
    (WriteOk (ea o s) (v s) s →
      ∃ t, memWrite (ea o s) (v s) s = .ok t ∧ exec (k o) s = .next t ∧ StoreFrame (ea o s) s t) ∧
    (¬ WriteOk (ea o s) (v s) s → ∃ e, memWrite (ea o s) (v s) s = .error e ∧ exec (k o) s = .fault e)

/-- A read-modify-write instruction, in every memory mode it has: it reads `m` at its effective address, writes `f carry m` to the
same address and goes to `g carry m t` for the state `t` after the write, which keeps the frame of that store; or it stops with
the fault of the read or of the write. -/
def RmwSpec (k : Operand → Instr) (f : Bool → Byte → Byte) (g : Bool → Byte → State → State) : Prop :=
  ∀ (o : Operand) (s : State), (k o).wellFormed = true → o ≠ .acc →
    let a := ea o s
    let m := readByte a s
    let u := afterRead a s
    (ReadOk a s → WriteOk a (f s.p.c m) u →
      ∃ t, memWrite a (f s.p.c m) u = .ok t ∧ exec (k o) s = .next (g s.p.c m t) ∧ StoreFrame a s t) ∧
    (¬ ReadOk a s → exec (k o) s = .fault (faultAt (.ppuWriteOnlyRead a) s)) ∧
    (ReadOk a s → ¬ WriteOk a (f s.p.c m) u →
      ∃ e, memWrite a (f s.p.c m) u = .error e ∧ exec (k o) s = .fault e)

/-- The operand a reading or storing instruction resolves, if it has one. -/
def operandOf? : Instr → Option Operand
  | .lda o | .ldx o | .ldy o | .sta o | .stx o | .sty o | .adc o | .sbc o | .and o | .ora o | .eor o | .cmp o | .cpx o
  | .cpy o | .bit o | .inc o | .dec o | .asl o | .lsr o | .rol o | .ror o | .slo o | .rla o | .sre o | .rra o | .sax o
  | .lax o | .dcp o | .isb o | .ahx o | .nopMemory _ o => some o
  | .las w | .shx w | .tas w => some (.absY w)
  | .shy w => some (.absX w)
  | .tax | .tay | .txa | .tya | .tsx | .txs | .inx | .iny | .dex | .dey | .bcc _ | .bcs _ | .beq _ | .bne _ | .bmi _
  | .bpl _ | .bvc _ | .bvs _ | .jmp _ | .jmpInd _ | .jsr _ | .rts | .rti | .brk | .pha | .php | .pla | .plp | .clc | .cld
  | .cli | .clv | .sec | .sed | .sei | .nop | .anc _ _ | .alr _ | .arr _ | .axs _ | .sbcEB _ | .xaa _ | .lxa _
  | .nopImmediate _ _ | .nopImplied _ | .jam _ => none

/-- The instructions that write a byte at their effective address. -/
def writesAtEa : Instr → Bool
  | .sta _ | .stx _ | .sty _ | .sax _ | .ahx _ | .shx _ | .shy _ | .tas _ => true
  | .inc o | .dec o | .asl o | .lsr o | .rol o | .ror o => decide (o ≠ .acc)
  | .slo _ | .rla _ | .sre _ | .rra _ | .dcp _ | .isb _ => true
  | _ => false

/-- Whether a branch is taken, with its offset; none for an instruction that is no branch (44_control_flow.md R301 to R308). -/
def branchOf? (i : Instr) (f : Flags) : Option (Bool × Byte) :=
  match i with
  | .bcc off => some (!f.c, off)
  | .bcs off => some (f.c, off)
  | .beq off => some (f.z, off)
  | .bne off => some (!f.z, off)
  | .bmi off => some (f.n, off)
  | .bpl off => some (!f.n, off)
  | .bvc off => some (!f.v, off)
  | .bvs off => some (f.v, off)
  | _ => none

/-- The target of a branch, in integers: the address of the next instruction plus the signed offset, modulo 65536 (R300). -/
def targetOf (pc : Word) (off : Byte) : Word := BitVec.ofInt 16 ((pc.toNat : Int) + off.toInt)

/-- The cycles an instruction charges beyond its base count (70_reset_and_hazards.md R566): a page cross of a `+p` row, a taken
branch and its page change, and an OAM DMA. -/
def extraCycles (i : Instr) (s : State) : Nat :=
  (match operandOf? i with
    | some o => if i.crossPenalty && crosses o s then 1 else 0
    | none => 0) +
  (match branchOf? i s.p with
    | some (true, off) => if s.pc.toNat / 256 = (targetOf s.pc off).toNat / 256 then 1 else 2
    | _ => 0) +
  (match operandOf? i with
    | some o => if writesAtEa i && decide ((ea o s).toNat = 0x4014) then s.params.dmaCycles else 0
    | none => 0)

/-- A branch, taken and not (44_control_flow.md R300). -/
def BranchSpec (k : Byte → Instr) (cond : Flags → Bool) : Prop :=
  ∀ (off : Byte) (s : State),
    (cond s.p = false → exec (k off) s = .next s) ∧
    (cond s.p = true →
      exec (k off) s = .next { s with
        pc := targetOf s.pc off
        ctx := { s.ctx with
          cyc := s.ctx.cyc + (if s.pc.toNat / 256 = (targetOf s.pc off).toNat / 256 then 1 else 2) } })

/-- An unstable store, in the mode of operand `o` (46_undocumented.md R421): `u` is the state the write happens in, `r` the
register byte. Under `any` the byte is the model's free value of the next draw (log 10). -/
def UnstableSpec (i : Instr) (o : Operand) (r : Byte) (u s : State) : Prop :=
  let v := if s.params.unstableStore = .formula then r &&& BitVec.ofNat 8 ((baseAddr o s).toNat / 256 + 1)
    else Config.unstableByte s.draws
  let w := if s.params.unstableStore = .formula then u else { u with draws := s.draws + 1 }
  (WriteOk (ea o s) v s → ∃ t, memWrite (ea o s) v w = .ok t ∧ exec i s = .next t ∧ StoreFrame (ea o s) w t) ∧
  (¬ WriteOk (ea o s) v s → ∃ e, memWrite (ea o s) v w = .error e ∧ exec i s = .fault e)

/-- The Decimal flag replaced. -/
def withDecimal (d : Bool) (s : State) : State := { s with p := { s.p with d := d } }

/-- An outcome with the Decimal flag of the state it holds replaced. -/
def outcomeWithDecimal (d : Bool) : Host.Outcome State Fault Refusal → Host.Outcome State Fault Refusal
  | .next s => .next (withDecimal d s)
  | .fault (.stopped info left) => .fault (.stopped info (withDecimal d left))
  | .refused r => .refused r

/-! ## Runs -/

/-- The bytes at the CPU addresses from `a` on, where they are all RAM or PRG ROM: what a fetch there reads. -/
def codeBytes (s : State) : Nat → Word → List Byte
  | 0, _ => []
  | n + 1, a => readByte a s :: codeBytes s n (a + 1)

/-- The addresses from `a` on, `n` of them, are all RAM or PRG ROM. -/
def inCodeMemory : Nat → Word → Bool
  | 0, _ => true
  | n + 1, a => placeable a && inCodeMemory n (a + 1)

/-- The state after a fetch of the byte at PC that completes: the read's effect, and PC past the byte (30_encoding.md R152). -/
def pastByte (s : State) : State :=
  let t := afterRead s.pc s
  { t with pc := s.pc + 1 }

/-- The next `n` bytes at PC can be fetched, each read in the state the fetches before it leave (20_memory.md R106). -/
def Fetchable : Nat → State → Prop
  | 0, _ => True
  | n + 1, s => ReadOk s.pc s ∧ Fetchable n (pastByte s)

/-- The next `n` bytes that fetches at PC read. -/
def fetchedBytes : Nat → State → List Byte
  | 0, _ => []
  | n + 1, s => readByte s.pc s :: fetchedBytes n (pastByte s)

/-- The state after the next `n` fetches at PC. -/
def afterFetches : Nat → State → State
  | 0, s => s
  | n + 1, s => afterFetches n (pastByte s)

/-! ## OAM DMA -/

/-- The state after the first `k` bytes of an OAM DMA from page `pg`, where their reads complete: each is read through the router
with its effect and then written at the cursor, which moves on (60_exceptions.md R490). -/
def dmaAfter (pg : Byte) : Nat → State → State
  | 0, s => s
  | k + 1, s =>
    let u := dmaAfter pg k s
    let a : Word := BitVec.ofNat 16 (256 * pg.toNat + k)
    let t := afterRead a u
    { t with ppu := { t.ppu with
      oam := t.ppu.oam.write t.ppu.oamAddr.toNat (readByte a u)
      oamAddr := t.ppu.oamAddr + 1 } }

/-- A normal run of `n` steps: it does not fault, and it ends Running or Halted (00_scope.md R13, 60_exceptions.md R503). -/
def NormalRun (n : Nat) (s : State) : Prop :=
  ∃ t, hostRun n s = .next t ∧ (t.cpuRun = .running ∨ t.cpuRun = .halted)

end Sys2Proof.Machine
end

