-- ==== Sys2Proof/Certificates/Slice0/Obligations.lean ====
section
/-! DEFINITION. The statements for the provers. Each one's docstring names the rules of spec/ it formalises. -/

open Sys2Proof Sys2Proof.Machine

/-! ## Encoding and decoding -/

/-- 30_encoding.md R150, R151, R153, R156: every well-formed instruction decodes from its own bytes, with every operand at every
value, and the decoder leaves the bytes that follow. -/
def Obligations.DecodeAfterEncode : Prop :=
  ∀ (i : Instr) (rest : List Byte), i.wellFormed = true →
    decode (encode i ++ rest) = .ok (i, rest) ∧ (encode i).length = i.length

/-- R150, R156: what decodes is well formed, and encoding it gives the bytes back: every byte string has one meaning. -/
def Obligations.EncodeAfterDecode : Prop :=
  ∀ (bytes rest : List Byte) (i : Instr), decode bytes = .ok (i, rest) → i.wellFormed = true ∧ encode i ++ rest = bytes

/-- R156, 60_exceptions.md R432: every opcode byte has a row, so any three bytes decode to an instruction with that opcode, and
no byte string is refused for its opcode. -/
def Obligations.EveryOpcodeByteDecodes : Prop :=
  (∀ op b1 b2 : Byte, ∃ (i : Instr) (rest : List Byte),
    decode [op, b1, b2] = .ok (i, rest) ∧ i.wellFormed = true ∧ i.opcode? = some op) ∧
  (∀ (bytes : List Byte) (op : Byte), decode bytes ≠ .error (.unknownOpcode op))

/-- R155, R156: words written out from the opcode map, one or more of every family. -/
def Obligations.SampleWordsDecode : Prop :=
  decodeTableWord 16 0x10A9 = some (.lda (.imm 0x10)) ∧ decodeTableWord 24 0x12F0BD = some (.lda (.absX 0x12F0)) ∧
  decodeTableWord 16 0x8691 = some (.sta (.indY 0x86)) ∧ decodeTableWord 8 0xBA = some .tsx ∧
  decodeTableWord 16 0x2061 = some (.adc (.indX 0x20)) ∧ decodeTableWord 24 0x20022C = some (.bit (.abs 0x2002)) ∧
  decodeTableWord 8 0x6A = some (.ror .acc) ∧ decodeTableWord 16 0x8016 = some (.asl (.zpX 0x80)) ∧
  decodeTableWord 16 0xFBD0 = some (.bne 0xFB) ∧ decodeTableWord 24 0x02FF6C = some (.jmpInd 0x02FF) ∧
  decodeTableWord 24 0x070020 = some (.jsr 0x0700) ∧ decodeTableWord 8 0x40 = some .rti ∧
  decodeTableWord 8 0x00 = some .brk ∧ decodeTableWord 8 0x08 = some .php ∧ decodeTableWord 8 0xF8 = some .sed ∧
  decodeTableWord 16 0xF097 = some (.sax (.zpY 0xF0)) ∧ decodeTableWord 24 0x02001B = some (.slo (.absY 0x0200)) ∧
  decodeTableWord 16 0x802B = some (.anc 0x2B 0x80) ∧ decodeTableWord 16 0x03EB = some (.sbcEB 0x03) ∧
  decodeTableWord 24 0x12F01C = some (.nopMemory 0x1C (.absX 0x12F0)) ∧ decodeTableWord 8 0xF2 = some (.jam 0xF2)

/-! ## The step -/

/-- 60_exceptions.md R440, 30_encoding.md R152, 20_memory.md R106: a running CPU first takes a pending NMI, then fetches at PC through the
router, wherever PC is, each byte with its read's effect, and runs the instruction that those bytes decode to: with PC past them and
the base cycles charged, `exec` of it, then the bus tick of the cycles counted. In RAM and PRG ROM the fetches read what lies there
and change nothing but PC. -/
def Obligations.StepRunsTheDecodedInstruction : Prop :=
  (∀ (s : State) (i : Instr) (op : Byte), s.cpuRun = .running → i.wellFormed = true → i.opcode? = some op →
    let u := serviceNmi { s with ctx := StepCtx.idle }
    Fetchable i.length u → decode (fetchedBytes i.length u) = .ok (i, []) →
    step s =
      match exec i { afterFetches i.length u with
        ctx := { cyc := u.ctx.cyc + baseCharge s.params i, opAddr := u.pc, opcode := some op } } with
      | .next t => .next { busTick t.ctx.cyc t with ctx := StepCtx.idle }
      | .fault f => .fault f
      | .refused r => .refused r) ∧
  (∀ (n : Nat) (u : State), (afterFetches n u).pc = u.pc + BitVec.ofNat 16 n ∧
    (inCodeMemory n u.pc = true →
      Fetchable n u ∧ fetchedBytes n u = codeBytes u n u.pc ∧
      afterFetches n u = { u with pc := u.pc + BitVec.ofNat 16 n }))

/-- 60_exceptions.md R454, R460, R457: a pending NMI is taken whatever P.I holds: the latch is cleared, PC's high and low byte and P
with B clear and U set are pushed, I is set, `NMI_CYCLES` (7 by default) charged and PC loaded from 0xFFFA; nothing else
changes. Without a pending NMI nothing happens. -/
def Obligations.NmiEntryEffect : Prop :=
  Params.default.nmiCycles = 7 ∧
  ∀ s : State,
    (s.ppu.nmiPending = false → serviceNmi s = s) ∧
    (s.ppu.nmiPending = true → serviceNmi s = { s with
      ram := ((s.ram.write (0x100 + s.sp.toNat) (BitVec.ofNat 8 (s.pc.toNat / 256))).write (0x100 + (s.sp - 1).toNat)
        (BitVec.ofNat 8 (s.pc.toNat % 256))).write (0x100 + (s.sp - 2).toNat) { s.p with b := false, u := true }.toByte
      sp := s.sp - 3
      p := { s.p with i := true }
      pc := BitVec.ofNat 16 (256 * (readByte 0xFFFB s).toNat + (readByte 0xFFFA s).toNat)
      ctx := { s.ctx with cyc := s.ctx.cyc + s.params.nmiCycles }
      ppu := { s.ppu with nmiPending := false } })

/-- 60_exceptions.md R455, 44_control_flow.md R314: RTI after an NMI entry gives back PC, SP and every flag but B and U, which it
leaves 0 and 1, and leaves A, X and Y and the run state as they were. -/
def Obligations.RtiUndoesNmiEntry : Prop :=
  ∀ s : State, ∃ t, exec .rti (nmiEntry s) = .next t ∧ t.pc = s.pc ∧ t.sp = s.sp ∧
    t.p = { s.p with b := false, u := true } ∧ t.a = s.a ∧ t.x = s.x ∧ t.y = s.y ∧ t.cpuRun = s.cpuRun ∧
    t.ppu = s.ppu ∧
    ∀ k, k ≠ 0x100 + s.sp.toNat → k ≠ 0x100 + (s.sp - 1).toNat → k ≠ 0x100 + (s.sp - 2).toNat →
      t.ram.read k = s.ram.read k

/-- 10_state.md R46, 60_exceptions.md R440: only a running CPU takes steps. A Halted or Jammed CPU stays as it is; a Faulted one
answers the fault it holds and stays as it is. What the outcome of such a step is, and that a fault's outcome holds a state, is the
model's choice (logs 6 and 5). -/
def Obligations.StoppedCpuTakesNoStep : Prop :=
  ∀ s : State,
    (s.cpuRun = .halted ∨ s.cpuRun = .jammed → step s = .next s) ∧
    (∀ info, s.cpuRun = .faulted info → step s = .fault (.stopped info s))

/-- 60_exceptions.md R430, R431: a fault of a running step names the address of the instruction and the opcode byte fetched there, or
none where that fetch is what faulted, and leaves a Faulted CPU whose bus and PPU time have not advanced and whose ROMs are
unchanged. The model's choices: the outcome holds the state left (log 5), a further step answers the same fault (log 6), and frame
events are counted (log 13). -/
def Obligations.FaultStopsTheStep : Prop :=
  ∀ (s : State) (f : Fault), s.cpuRun = .running → step s = .fault f →
    let u := serviceNmi { s with ctx := StepCtx.idle }
    ∃ (info : FaultInfo) (t : State), f = .stopped info t ∧ t.cpuRun = .faulted info ∧
      info.opAddr = u.pc ∧
      (ReadOk u.pc u → info.opcode = some (readByte u.pc u)) ∧
      (¬ ReadOk u.pc u → info.opcode = none ∧ info.cause = .ppuWriteOnlyRead u.pc) ∧
      t.busCycles = s.busCycles ∧ t.ppu.scanline = s.ppu.scanline ∧ t.ppu.dot = s.ppu.dot ∧
      t.frameEvents = s.frameEvents ∧ t.prg = s.prg ∧ t.prgSize = s.prgSize ∧ t.ppu.chr = s.ppu.chr ∧
      t.ppu.mirroring = s.ppu.mirroring ∧ t.params = s.params ∧ t.handler = s.handler ∧ t.ctx = StepCtx.idle ∧
      step t = .fault f

/-- 60_exceptions.md R432, R433, R434: no running step ends in `UnknownOpcode` or `InvalidAddressingModeUse`, and none is refused. -/
def Obligations.OnlyAccessFaultsHappen : Prop :=
  ∀ s : State, s.cpuRun = .running →
    (∀ r, step s ≠ .refused r) ∧
    ∀ (info : FaultInfo) (t : State), step s = .fault (.stopped info t) →
      info.cause ≠ .unknownOpcode ∧ ∀ m, info.cause ≠ .invalidAddressingModeUse m

/-- 20_memory.md R106, 60_exceptions.md R485, R431: opcode and operand fetches read through the router; from a write-only PPU register
under `WO_READ_POLICY = fault` they fault, after any NMI entry, with PC still at that address: the opcode fetch with no opcode byte,
an operand fetch with the opcode noted and the effects of the fetches before it kept. The state in the outcome is log 5's. -/
def Obligations.FetchFromWriteOnlyRegisterFaults : Prop :=
  ∀ s : State, s.cpuRun = .running →
    let u := serviceNmi { s with ctx := StepCtx.idle }
    (¬ ReadOk u.pc u →
      step s = .fault (.stopped ⟨.ppuWriteOnlyRead u.pc, u.pc, none⟩
        { u with cpuRun := .faulted ⟨.ppuWriteOnlyRead u.pc, u.pc, none⟩, ctx := StepCtx.idle })) ∧
    (∀ (i : Instr) (k : Nat), i.wellFormed = true → i.opcode? = some (readByte u.pc u) → 0 < k → k < i.length → Fetchable k u →
      let t := afterFetches k u
      ¬ ReadOk t.pc t →
      step s = .fault (.stopped ⟨.ppuWriteOnlyRead t.pc, u.pc, some (readByte u.pc u)⟩
        { t with cpuRun := .faulted ⟨.ppuWriteOnlyRead t.pc, u.pc, some (readByte u.pc u)⟩, ctx := StepCtx.idle }))

/-- 70_reset_and_hazards.md R561, R562, R563, R565, R566: an instruction that completes adds to the cycle count, beyond the base
cycles its step charged, one cycle for a page cross of a `+p` row, one or two for a taken branch and `DMA_CYCLES` for an OAM DMA;
nothing else is counted, and the base charge is the row's count, or 0 for BRK and for JAM under `jam`. -/
def Obligations.CyclesOfAnInstruction : Prop :=
  (∀ (i : Instr) (s t : State), i.wellFormed = true → exec i s = .next t →
    t.ctx.cyc = s.ctx.cyc + extraCycles i s ∧ t.busCycles = s.busCycles) ∧
  (∀ (i : Instr) (par : Params), baseCharge par i =
    if i = .brk ∨ ((∃ code, i = .jam code) ∧ par.jamPolicy = .jam) then 0 else i.baseCycles)

/-! ## Invariants -/

/-- The model's invariant at reset: every memory canonical and inside its size, the PPU's counters in range, no step under way. -/
def Obligations.InvariantAtReset : Prop := State.reset.Inv

/-- 10_state.md R50, R51, R60 to R63, R71, R72, R47: every step of the machine keeps the memories canonical and inside their sizes
and the scanline and dot in range, and leaves no step under way. -/
def Obligations.StepKeepsInvariant : Prop :=
  ∀ s t : State, s.Inv → step s = .next t → t.Inv

/-- 10_state.md R51, R52, R60, 20_memory.md R90, R118, 60_exceptions.md R466, R502: no step changes PRG ROM, CHR ROM, the mirroring, the
parameters or the host's handler, and the bus cycle counter never decreases. -/
def Obligations.StepKeepsRoms : Prop :=
  ∀ s t : State, step s = .next t →
    t.prg = s.prg ∧ t.prgSize = s.prgSize ∧ t.ppu.chr = s.ppu.chr ∧ t.ppu.mirroring = s.ppu.mirroring ∧
    t.params = s.params ∧ t.handler = s.handler ∧ s.busCycles ≤ t.busCycles

/-! ## Memory -/

/-- 20_memory.md R83, R85, R86, R88, R89, R90, R91: RAM is mirrored every 0x0800 bytes, PRG ROM every `PRG_SIZE` bytes and cannot be
written, and the audio, OAM DMA, second input and unmapped addresses read 0x00 and, but for 0x4014, ignore writes. -/
def Obligations.RamRomAndUnmapped : Prop :=
  ∀ (a : Word) (v : Byte) (s : State),
    (a.toNat < 0x2000 →
      memRead a s = .ok (s.ram.read (a.toNat % 0x800), s) ∧
      memWrite a v s = .ok { s with ram := s.ram.write (a.toNat % 0x800) v } ∧
      ∀ b : Word, readByte b { s with ram := s.ram.write (a.toNat % 0x800) v } =
        if SameRamByte a b then v else readByte b s) ∧
    (0x4000 ≤ a.toNat → a.toNat < 0x8000 → a.toNat ≠ 0x4016 →
      memRead a s = .ok (0x00, s) ∧ (a.toNat ≠ 0x4014 → memWrite a v s = .ok s)) ∧
    (0x8000 ≤ a.toNat →
      memRead a s = .ok (s.prg.read ((a.toNat - 0x8000) % (if s.prgSize = .k16 then 16384 else 32768)), s) ∧
      memWrite a v s = .error (faultAt (.romWriteAttempt .cpu a v) s))

/-- 20_memory.md R87, 10_state.md R53: the input device supplies the byte a read of 0x4016 returns (the model's free value of the device's
state and the next draw, log 7) and receives the byte written there, by which its state may change (the model's free value, and its
list of deliveries, log 8); neither access faults. -/
def Obligations.InputDevicePort : Prop :=
  ∀ (v : Byte) (s : State),
    memRead 0x4016 s = .ok (Config.inputByte s.input s.draws, { s with draws := s.draws + 1 }) ∧
    memWrite 0x4016 v s = .ok { s with
      input := Config.inputAfterWrite s.input v
      inputWrites := v :: s.inputWrites }

/-- 20_memory.md R98, R99: what a read changes: no register, no flag, no counter, no byte of RAM, PRG, CHR, VRAM, palette or OAM, and not
the input device (10_state.md R53 with 92_eei_decisions.md D35); and a read outside 0x2000 to 0x3FFF and 0x4016 changes nothing at all. -/
def Obligations.ReadFrame : Prop :=
  ∀ (a : Word) (b : Byte) (s t : State), memRead a s = .ok (b, t) →
    StoreFrame 0x4017 s t ∧ t.ram = s.ram ∧ t.ppu.vram = s.ppu.vram ∧ t.ppu.palette = s.ppu.palette ∧
    t.ppu.oam = s.ppu.oam ∧ t.ppu.oamAddr = s.ppu.oamAddr ∧ t.ppu.ctrl = s.ppu.ctrl ∧ t.ppu.mask = s.ppu.mask ∧
    t.ppu.scrollX = s.ppu.scrollX ∧ t.ppu.scrollY = s.ppu.scrollY ∧ t.ppu.nmiPending = s.ppu.nmiPending ∧
    t.ctx = s.ctx ∧ t.input = s.input ∧ t.inputWrites = s.inputWrites ∧
    (a.toNat < 0x2000 ∨ (0x4000 ≤ a.toNat ∧ a.toNat ≠ 0x4016) → t = s)

/-- 20_memory.md R98: what a write changes, at any address: outside 0x4014 no cycle is charged; RAM changes only by a write of its
own addresses, VRAM and palette only through the data register, OAM only through the OAM data register and OAM DMA, the input device
only by a write of 0x4016; and every RAM and PRG byte but the one written reads as before. -/
def Obligations.WriteFrame : Prop :=
  ∀ (a : Word) (v : Byte) (s t : State), memWrite a v s = .ok t →
    StoreFrame a s t ∧
    t.ctx.cyc = s.ctx.cyc + (if a.toNat = 0x4014 then s.params.dmaCycles else 0) ∧
    (0x2000 ≤ a.toNat → t.ram = s.ram) ∧
    (a.toNat ≠ 0x4016 → t.input = s.input ∧ t.inputWrites = s.inputWrites) ∧
    (¬ (0x2000 ≤ a.toNat ∧ a.toNat < 0x4000 ∧ a.toNat % 8 = 7) →
      t.ppu.vram = s.ppu.vram ∧ t.ppu.palette = s.ppu.palette) ∧
    (¬ (0x2000 ≤ a.toNat ∧ a.toNat < 0x4000 ∧ a.toNat % 8 = 4) → a.toNat ≠ 0x4014 → t.ppu.oam = s.ppu.oam) ∧
    (a.toNat ≠ 0x4014 → a.toNat < 0x2000 ∨ 0x4000 ≤ a.toNat → t.ppu = s.ppu)

/-- 40_addressing.md R171, R174 to R180, R182, R183: the effective address of every mode and its page-cross output. -/
def Obligations.EffectiveAddresses : Prop :=
  ∀ (z : Byte) (w : Word) (s : State),
    let pointer := fun q : Nat => 256 * (s.ram.read ((q + 1) % 256)).toNat + (s.ram.read q).toNat
    (ea (.zp z) s).toNat = z.toNat ∧ (ea (.zpX z) s).toNat = (z.toNat + s.x.toNat) % 256 ∧
    (ea (.zpY z) s).toNat = (z.toNat + s.y.toNat) % 256 ∧ ea (.abs w) s = w ∧
    (ea (.absX w) s).toNat = (w.toNat + s.x.toNat) % 65536 ∧ (ea (.absY w) s).toNat = (w.toNat + s.y.toNat) % 65536 ∧
    (ea (.indX z) s).toNat = pointer ((z.toNat + s.x.toNat) % 256) ∧
    (ea (.indY z) s).toNat = (pointer z.toNat + s.y.toNat) % 65536 ∧
    (crosses (.absX w) s = true ↔ w.toNat / 256 ≠ (ea (.absX w) s).toNat / 256) ∧
    (crosses (.absY w) s = true ↔ w.toNat / 256 ≠ (ea (.absY w) s).toNat / 256) ∧
    (crosses (.indY z) s = true ↔ pointer z.toNat / 256 ≠ (ea (.indY z) s).toNat / 256) ∧
    (∀ o : Operand, o.mode ≠ .absoluteX → o.mode ≠ .absoluteY → o.mode ≠ .indirectY → crosses o s = false)

/-! ## The PPU registers -/

/-- 60_exceptions.md R481, 20_memory.md R84: a read of status or a mirror returns its three bits over the low bits, clears vblank and
both write toggles and changes nothing else. Under `STATUS_LOW_BITS = any` the low bits are the model's free value (log 10). -/
def Obligations.PpuStatusRead : Prop :=
  ∀ (a : Word) (s : State), 0x2000 ≤ a.toNat → a.toNat < 0x4000 → a.toNat % 8 = 2 →
    let u := { s with ppu := { s.ppu with vblank := false, addrW := false, scrollW := false } }
    let top := 128 * s.ppu.vblank.toNat + 64 * s.ppu.spriteZero.toNat + 32 * s.ppu.overflow.toNat
    (s.params.statusLowBits = .zero → memRead a s = .ok (BitVec.ofNat 8 top, u)) ∧
    (s.params.statusLowBits = .any →
      memRead a s = .ok (BitVec.ofNat 8 (top + (Config.statusLow s.draws).toNat), { u with draws := s.draws + 1 }))

/-- 60_exceptions.md R485, R489, 20_memory.md R84: a read of OAM data returns the byte at the cursor and changes nothing; a read of a
write-only register faults, or under `any` returns the model's free value (log 10) and changes no state of the block. -/
def Obligations.OamDataAndWriteOnlyReads : Prop :=
  ∀ (a : Word) (s : State), 0x2000 ≤ a.toNat → a.toNat < 0x4000 →
    (a.toNat % 8 = 4 → memRead a s = .ok (s.ppu.oam.read s.ppu.oamAddr.toNat, s)) ∧
    (a.toNat % 8 = 0 ∨ a.toNat % 8 = 1 ∨ a.toNat % 8 = 3 ∨ a.toNat % 8 = 5 ∨ a.toNat % 8 = 6 →
      (s.params.woRead = .fault → memRead a s = .error (faultAt (.ppuWriteOnlyRead a) s)) ∧
      (s.params.woRead = .any →
        memRead a s = .ok (Config.writeOnlyByte s.draws, { s with draws := s.draws + 1 })))

/-- 60_exceptions.md R478, R483, 20_memory.md R84: a data read returns the buffer and refills it below 0x3F00, returns the palette
byte and leaves the buffer from 0x3F00 on, and moves the pointer by 1 or 32 modulo 0x4000. -/
def Obligations.PpuDataRead : Prop :=
  ∀ (a : Word) (s : State), 0x2000 ≤ a.toNat → a.toNat < 0x4000 → a.toNat % 8 = 7 →
    let v' := BitVec.ofNat 14 ((s.ppu.v.toNat + (if s.ppu.ctrl.toNat / 4 % 2 = 1 then 32 else 1)) % 0x4000)
    (s.ppu.v.toNat ≤ 0x3EFF →
      memRead a s = .ok (s.ppu.readBuf, { s with ppu := { s.ppu with v := v', readBuf := s.ppu.read s.ppu.v } })) ∧
    (0x3F00 ≤ s.ppu.v.toNat →
      memRead a s = .ok (s.ppu.read s.ppu.v, { s with ppu := { s.ppu with v := v' } }))

/-- 60_exceptions.md R477, R483, 20_memory.md R84, R118: a data write below 0x2000 faults and moves nothing under
`CHR_WRITE_POLICY = fault`; every other one writes at the pointer and then moves it by 1 or 32 modulo 0x4000. -/
def Obligations.PpuDataWrite : Prop :=
  ∀ (a : Word) (val : Byte) (s : State), 0x2000 ≤ a.toNat → a.toNat < 0x4000 → a.toNat % 8 = 7 →
    let v' := BitVec.ofNat 14 ((s.ppu.v.toNat + (if s.ppu.ctrl.toNat / 4 % 2 = 1 then 32 else 1)) % 0x4000)
    (s.ppu.v.toNat ≤ 0x1FFF → s.params.chrWrite = .fault →
      memWrite a val s = .error (faultAt (.romWriteAttempt .chr (BitVec.ofNat 16 s.ppu.v.toNat) val) s)) ∧
    (0x2000 ≤ s.ppu.v.toNat ∨ s.params.chrWrite = .ignore →
      memWrite a val s = .ok { s with ppu := { s.ppu.write s.ppu.v val with v := v' } })

/-- 20_memory.md R110, R111, R113 to R118, R121: the byte that every PPU address reaches: CHR below 0x2000, which no write changes;
the nametable bank and offset of the mirroring mode below 0x3F00, or 0x00 and no write under FourScreen; the palette entry with
its four aliases from 0x3F00 on. -/
def Obligations.PpuAddressSpace : Prop :=
  ∀ (a : BitVec 14) (val : Byte) (p : Ppu),
    let r := if a.toNat < 0x3000 then a.toNat - 0x2000 else a.toNat - 0x3000
    let bank := if p.mirroring = .vertical then r / 0x400 % 2 else r / 0x800
    let nt := bank * 0x400 + r % 0x400
    let pal := if a.toNat % 32 = 0x10 ∨ a.toNat % 32 = 0x14 ∨ a.toNat % 32 = 0x18 ∨ a.toNat % 32 = 0x1C
      then a.toNat % 32 - 16 else a.toNat % 32
    (a.toNat ≤ 0x1FFF → p.read a = p.chr.read a.toNat ∧ p.write a val = p) ∧
    (0x2000 ≤ a.toNat → a.toNat ≤ 0x3EFF → p.mirroring = .fourScreen → p.read a = 0x00 ∧ p.write a val = p) ∧
    (0x2000 ≤ a.toNat → a.toNat ≤ 0x3EFF → p.mirroring ≠ .fourScreen →
      p.read a = p.vram.read nt ∧ p.write a val = { p with vram := p.vram.write nt val }) ∧
    (0x3F00 ≤ a.toNat → p.read a = p.palette.read pal ∧ p.write a val = { p with palette := p.palette.write pal val })

/-- 60_exceptions.md R480, R484, R486, R487, R488, 20_memory.md R84: the control, mask, status, OAM address and OAM data writes, at the
register or a mirror. -/
def Obligations.PpuPlainWrites : Prop :=
  ∀ (a : Word) (val : Byte) (s : State), 0x2000 ≤ a.toNat → a.toNat < 0x4000 →
    (a.toNat % 8 = 0 → memWrite a val s = .ok { s with ppu := { s.ppu with
      ctrl := val
      nmiPending := s.ppu.nmiPending ||
        (decide (s.ppu.ctrl.toNat < 128) && decide (128 ≤ val.toNat) && s.ppu.vblank) } }) ∧
    (a.toNat % 8 = 1 → memWrite a val s = .ok { s with ppu := { s.ppu with mask := val } }) ∧
    (a.toNat % 8 = 2 →
      (s.params.statusWrite = .fault → memWrite a val s = .error (faultAt (.ppuStatusWrite a val) s)) ∧
      (s.params.statusWrite = .ignore → memWrite a val s = .ok s)) ∧
    (a.toNat % 8 = 3 → memWrite a val s = .ok { s with ppu := { s.ppu with oamAddr := val } }) ∧
    (a.toNat % 8 = 4 → memWrite a val s = .ok { s with ppu := { s.ppu with
      oam := s.ppu.oam.write s.ppu.oamAddr.toNat val
      oamAddr := s.ppu.oamAddr + 1 } })

/-- 60_exceptions.md R479, R482, 20_memory.md R84: the address and scroll writes and their write toggles, at the register or a mirror.
Under `SHARED_W_TOGGLE` both use the one bit the model keeps in `addrW` (log 14). -/
def Obligations.PpuTwoWriteRegisters : Prop :=
  ∀ (a : Word) (val : Byte) (s : State), 0x2000 ≤ a.toNat → a.toNat < 0x4000 →
    (a.toNat % 8 = 6 → s.ppu.addrW = false → memWrite a val s = .ok { s with ppu := { s.ppu with
      v := BitVec.ofNat 14 ((256 * val.toNat + s.ppu.v.toNat % 256) % 0x4000), addrW := true } }) ∧
    (a.toNat % 8 = 6 → s.ppu.addrW = true → memWrite a val s = .ok { s with ppu := { s.ppu with
      v := BitVec.ofNat 14 (s.ppu.v.toNat / 256 * 256 + val.toNat), addrW := false } }) ∧
    (a.toNat % 8 = 5 → s.params.sharedW = false → s.ppu.scrollW = false →
      memWrite a val s = .ok { s with ppu := { s.ppu with scrollX := val, scrollW := true } }) ∧
    (a.toNat % 8 = 5 → s.params.sharedW = false → s.ppu.scrollW = true →
      memWrite a val s = .ok { s with ppu := { s.ppu with scrollY := val, scrollW := false } }) ∧
    (a.toNat % 8 = 5 → s.params.sharedW = true → s.ppu.addrW = false →
      memWrite a val s = .ok { s with ppu := { s.ppu with scrollX := val, addrW := true } }) ∧
    (a.toNat % 8 = 5 → s.params.sharedW = true → s.ppu.addrW = true →
      memWrite a val s = .ok { s with ppu := { s.ppu with scrollY := val, addrW := false } })

/-- 60_exceptions.md R490: from every page whose reads complete an OAM DMA reads the 256 bytes in order through the router, each with
its effect, writes each at the cursor, charges `DMA_CYCLES` and changes nothing else, and the cursor ends where it was. So from a page
of RAM, PRG ROM or the unmapped space byte k of the page lands at OAM index cursor plus k modulo 256; page 0x40 is zeros but for the
input device's byte, the model's free value (log 7); a page of the PPU registers under `any` draws the model's free values (log 10),
and under `WO_READ_POLICY = fault` it faults at its first byte with nothing changed. -/
def Obligations.OamDma : Prop :=
  ∀ (pg : Byte) (s : State),
    (pg.toNat < 0x20 ∨ 0x40 ≤ pg.toNat ∨ s.params.woRead = .any →
      memWrite 0x4014 pg s = .ok { dmaAfter pg 256 s with
        ctx := { s.ctx with cyc := s.ctx.cyc + s.params.dmaCycles } } ∧
      (dmaAfter pg 256 s).ppu.oamAddr = s.ppu.oamAddr ∧ StoreFrame 0x4014 s (dmaAfter pg 256 s) ∧
      (dmaAfter pg 256 s).ppu.vram = s.ppu.vram ∧ (dmaAfter pg 256 s).ppu.palette = s.ppu.palette) ∧
    (pg.toNat < 0x20 ∨ 0x41 ≤ pg.toNat →
      ∃ m : Memory, memWrite 0x4014 pg s = .ok { s with
          ppu := { s.ppu with oam := m }
          ctx := { s.ctx with cyc := s.ctx.cyc + s.params.dmaCycles } } ∧
        ∀ k, k < 256 → m.read ((s.ppu.oamAddr.toNat + k) % 256) = readByte (BitVec.ofNat 16 (256 * pg.toNat + k)) s) ∧
    (pg.toNat = 0x40 →
      ∃ m : Memory, memWrite 0x4014 pg s = .ok { s with
          ppu := { s.ppu with oam := m }
          draws := s.draws + 1
          ctx := { s.ctx with cyc := s.ctx.cyc + s.params.dmaCycles } } ∧
        ∀ k, k < 256 → m.read ((s.ppu.oamAddr.toNat + k) % 256) = 
          if k = 0x16 then Config.inputByte s.input s.draws else 0x00) ∧
    (0x20 ≤ pg.toNat → pg.toNat < 0x40 → s.params.woRead = .fault →
      memWrite 0x4014 pg s = .error (faultAt (.ppuWriteOnlyRead (BitVec.ofNat 16 (256 * pg.toNat))) s))

/-! ## Time -/

/-- 60_exceptions.md R472, R475: a tick of n dots moves the position in the frame by n modulo 89,342 and keeps the counters in
range. -/
def Obligations.DotCounters : Prop :=
  ∀ (par : Params) (n : Nat) (p : Ppu), p.scanline ≤ 261 → p.dot ≤ 340 →
    let q := Ppu.dots par n p
    q.scanline * 341 + q.dot = (p.scanline * 341 + p.dot + n) % 89342 ∧ q.scanline ≤ 261 ∧ q.dot ≤ 340

/-- 60_exceptions.md R470, R471, R473, R474, R475: one dot step: entry to scanline 241 sets vblank, clears sprite-zero hit and latches an
NMI where control's bit 7 is set; the wrap at 262 clears the NMI latch, vblank and both sprite bits; no other dot does, the
sprite bits are set only after a dot of scanlines 0 to 239 and only under `oracle` (the model's free values, log 9), and the
registers and memories never change. -/
def Obligations.DotEvents : Prop :=
  ∀ (par : Params) (p : Ppu), p.scanline ≤ 261 → p.dot ≤ 340 →
    let q := p.dotStep par
    (p.dot = 340 → p.scanline = 240 → q.scanline = 241 ∧ q.dot = 0 ∧ q.vblank = true ∧ q.spriteZero = false ∧
      q.overflow = p.overflow ∧ q.nmiPending = (p.nmiPending || decide (128 ≤ p.ctrl.toNat))) ∧
    (p.dot = 340 → p.scanline = 261 → q.scanline = 0 ∧ q.dot = 0 ∧ q.vblank = false ∧ q.nmiPending = false ∧
      (par.sprite0Source = .never → q.spriteZero = false) ∧ (par.overflowSource = .never → q.overflow = false)) ∧
    (¬ (p.dot = 340 ∧ (p.scanline = 240 ∨ p.scanline = 261)) →
      q.vblank = p.vblank ∧ q.nmiPending = p.nmiPending ∧
      (p.spriteZero = true → q.spriteZero = true) ∧ (p.overflow = true → q.overflow = true) ∧
      (240 ≤ q.scanline ∨ par.sprite0Source = .never → q.spriteZero = p.spriteZero) ∧
      (240 ≤ q.scanline ∨ par.overflowSource = .never → q.overflow = p.overflow)) ∧
    q.chr = p.chr ∧ q.mirroring = p.mirroring ∧ q.vram = p.vram ∧ q.palette = p.palette ∧ q.oam = p.oam ∧
    q.ctrl = p.ctrl ∧ q.mask = p.mask ∧ q.oamAddr = p.oamAddr ∧ q.scrollX = p.scrollX ∧ q.scrollY = p.scrollY ∧
    q.scrollW = p.scrollW ∧ q.v = p.v ∧ q.addrW = p.addrW ∧ q.readBuf = p.readBuf

/-- 60_exceptions.md R475: from the start of a frame, vblank and the NMI latch stay as they are for 82,180 dots, and the next dot sets
vblank and latches an NMI exactly where control's bit 7 is set or one was latched before. -/
def Obligations.VblankAfter82181Dots : Prop :=
  ∀ (par : Params) (p : Ppu), p.scanline = 0 → p.dot = 0 →
    (∀ n, n ≤ 82180 → (Ppu.dots par n p).vblank = p.vblank ∧ (Ppu.dots par n p).nmiPending = p.nmiPending) ∧
    (Ppu.dots par 82181 p).vblank = true ∧
    (Ppu.dots par 82181 p).nmiPending = (p.nmiPending || decide (128 ≤ p.ctrl.toNat))

/-- 60_exceptions.md R465, R466, R467, R468, R502: the bus tick of n cycles adds n to the cycle counter, advances the PPU by 3n dots, and
raises a frame event exactly when the NMI latch rises within it: the host's handler gets the PPU after those dots and may change the
input device, which it leaves in the model's free value of the handler, the event, the PPU and the device (the model counts the
events, log 13). Nothing else changes. -/
def Obligations.BusTickEffect : Prop :=
  ∀ (n : Nat) (s : State),
    let q := Ppu.dots s.params (3 * n) s.ppu
    let rise := s.ppu.nmiPending = false ∧ q.nmiPending = true
    busTick n s = { s with
      busCycles := s.busCycles + n
      ppu := q
      frameEvents := s.frameEvents + (if rise then 1 else 0)
      input := if rise then Config.onFrame s.handler s.frameEvents q s.input else s.input }

/-! ## Reset and the host -/

/-- 70_reset_and_hazards.md R530, R531, R532, R534: `reset()` writes the registers and P with their reset values and PC with the word
at 0xFFFC, which it reads without effect; a Halted or Jammed CPU runs again, a Faulted one stays Faulted; nothing else changes. -/
def Obligations.ResetEffect : Prop :=
  ∀ s : State,
    memRead 0xFFFC s = .ok (readByte 0xFFFC s, s) ∧ memRead 0xFFFD s = .ok (readByte 0xFFFD s, s) ∧
    hostReset s = { s with
      a := 0x00
      x := 0x00
      y := 0x00
      sp := s.params.resetSP
      p := Flags.ofByte s.params.resetP
      pc := BitVec.ofNat 16 (256 * (readByte 0xFFFD s).toNat + (readByte 0xFFFC s).toNat)
      cpuRun := if s.cpuRun = .halted ∨ s.cpuRun = .jammed then .running else s.cpuRun }

/-- 70_reset_and_hazards.md R535, R536, 10_state.md R79, 60_exceptions.md R500: construction refuses exactly the cartridges of another
size or mapper, and otherwise gives the state of R79 with the cartridge's bytes in PRG and CHR, the host's handler (60_exceptions.md
R502) and no frame event raised. -/
def Obligations.Construction : Prop :=
  ∀ (cart : Cartridge) (par : Params) (init : InitMem) (handler : FrameHandler),
    (construct cart par init handler = none ↔
      ¬ ((cart.prg.length = 16384 ∨ cart.prg.length = 32768) ∧ cart.chr.length = 8192 ∧ cart.mapper = 0)) ∧
    ∀ s, construct cart par init handler = some s →
      (∀ k, k < cart.prg.length → s.prg.read k = cart.prg.getD k 0) ∧
      (∀ k, k < 8192 → s.ppu.chr.read k = cart.chr.getD k 0) ∧
      (s.prgSize = .k16 ↔ cart.prg.length = 16384) ∧
      s.a = 0x00 ∧ s.x = 0x00 ∧ s.y = 0x00 ∧ s.sp = par.resetSP ∧ s.p = Flags.ofByte par.resetP ∧
      s.pc = BitVec.ofNat 16 (256 * (readByte 0xFFFD s).toNat + (readByte 0xFFFC s).toNat) ∧
      s.cpuRun = .running ∧ s.ram = init.ram ∧ s.busCycles = 0 ∧ s.params = par ∧
      s.handler = handler ∧ s.frameEvents = 0 ∧
      s.ppu = { Ppu.reset with
        chr := s.ppu.chr
        mirroring := cart.mirroring
        vram := init.vram
        palette := init.palette
        oam := init.oam } ∧
      (init.ok = true → s.Inv)

/-- The model's choice of a cartridge, of the memories' contents and of the handler's code for its reset state (logs 1, 3 and 13): it is
the machine that construction gives of an all-zero 16 KB cartridge with vertical mirroring, the default parameters and zeroed
memories. -/
def Obligations.ResetStateIsAConstruction : Prop :=
  construct ⟨List.replicate 16384 0x00, List.replicate 8192 0x00, .vertical, 0⟩ Params.default InitMem.zero 0
    = some State.reset

/-- 60_exceptions.md R504, R505: a host access is the CPU's access without cycles: it completes where that does, with the same byte and
the same effect on the block, and where that faults it is refused with that fault's info and nothing changes. The model's choice
(log 19): the step context is put back as it was, and a refusal's info has its `op_addr` and `opcode` from that context. -/
def Obligations.HostAccess : Prop :=
  ∀ (a : Word) (v : Byte) (s : State),
    (ReadOk a s → hostRead a s = .ok (readByte a s, afterRead a s)) ∧
    (¬ ReadOk a s → hostRead a s = .error ⟨.ppuWriteOnlyRead a, s.ctx.opAddr, s.ctx.opcode⟩) ∧
    (WriteOk a v s → ∃ t, memWrite a v s = .ok t ∧ hostWrite a v s = .ok { t with ctx := s.ctx } ∧
      t.busCycles = s.busCycles ∧ t.ppu.scanline = s.ppu.scanline ∧ t.ppu.dot = s.ppu.dot) ∧
    (¬ WriteOk a v s → ∃ cause, memWrite a v s = .error (faultAt cause s) ∧
      hostWrite a v s = .error ⟨cause, s.ctx.opAddr, s.ctx.opcode⟩) ∧
    (hostSetP v s).p.toByte = v

/-- 60_exceptions.md R506: a load writes its bytes in order, each a host write; the first one refused, such as the first that lands in
PRG ROM, stops it and is returned, the bytes before it staying written and nothing else changing. A load inside RAM is not refused
and sets each byte's place, mirrors included; one inside the unmapped space changes nothing. The model's choice (log 19): the
refusal's `op_addr` and `opcode` are those of the step context. -/
def Obligations.HostLoad : Prop :=
  ∀ (bytes : List Byte) (a : Word) (s : State),
    (∀ (b : Byte) (rest : List Byte) (t : State), hostLoad bytes a s = (none, t) →
      let c := a + BitVec.ofNat 16 bytes.length
      t.ctx = s.ctx ∧
      (∀ info, hostWrite c b t = .error info → hostLoad (bytes ++ b :: rest) a s = (some info, t)) ∧
      (∀ u, hostWrite c b t = .ok u → hostLoad (bytes ++ b :: rest) a s = hostLoad rest (c + 1) u) ∧
      (0x8000 ≤ c.toNat →
        hostLoad (bytes ++ b :: rest) a s = (some ⟨.romWriteAttempt .cpu c b, s.ctx.opAddr, s.ctx.opcode⟩, t))) ∧
    (a.toNat + bytes.length ≤ 0x2000 →
      ∃ m : Memory, hostLoad bytes a s = (none, { s with ram := m }) ∧
        (∀ k, k < bytes.length → (∀ l, k < l → l < bytes.length → (a.toNat + l) % 0x800 ≠ (a.toNat + k) % 0x800) →
          m.read ((a.toNat + k) % 0x800) = bytes.getD k 0) ∧
        ∀ j, j < 0x800 → (∀ k, k < bytes.length → j ≠ (a.toNat + k) % 0x800) → m.read j = s.ram.read j) ∧
    (0x4018 ≤ a.toNat → a.toNat + bytes.length ≤ 0x8000 → hostLoad bytes a s = (none, s))

/-! ## P -/

/-- 10_state.md R35, R40, R41, 45_stack_flags_misc.md R344, R346, 60_exceptions.md R454: P as a byte is the eight flags at their bits, and back;
PHP pushes it with bits 5 and 4 set, NMI entry with bit 5 set and bit 4 clear, and a popped byte becomes P with B clear and U
set. -/
def Obligations.StatusByte : Prop :=
  (∀ f : Flags, f.toByte.toNat = 128 * f.n.toNat + 64 * f.v.toNat + 32 * f.u.toNat + 16 * f.b.toNat + 8 * f.d.toNat +
      4 * f.i.toNat + 2 * f.z.toNat + f.c.toNat ∧
    Flags.ofByte f.toByte = f ∧ f.phpByte = { f with u := true, b := true }.toByte ∧
    f.nmiByte = { f with u := true, b := false }.toByte) ∧
  (∀ v : Byte, (Flags.ofByte v).toByte = v ∧ Flags.popped v = { Flags.ofByte v with u := true, b := false })

/-- 42_arithmetic_logic.md R250, 10_state.md R39: ADC, both SBC, RRA, ISB and ARR compute alike whatever the Decimal flag holds: with
it replaced before, the outcome is the same with it replaced after, a fault's included. -/
def Obligations.DecimalHasNoEffect : Prop :=
  ∀ (d : Bool) (o : Operand) (imm : Byte) (s : State),
    exec (.adc o) (withDecimal d s) = outcomeWithDecimal d (exec (.adc o) s) ∧
    exec (.sbc o) (withDecimal d s) = outcomeWithDecimal d (exec (.sbc o) s) ∧
    exec (.sbcEB imm) (withDecimal d s) = outcomeWithDecimal d (exec (.sbcEB imm) s) ∧
    exec (.arr imm) (withDecimal d s) = outcomeWithDecimal d (exec (.arr imm) s) ∧
    exec (.rra o) (withDecimal d s) = outcomeWithDecimal d (exec (.rra o) s) ∧
    exec (.isb o) (withDecimal d s) = outcomeWithDecimal d (exec (.isb o) s)

/-- 42_arithmetic_logic.md R232, R235, 46_undocumented.md R383: a subtraction is `A - M - (1 - C)` modulo 256, its carry out says that no
borrow occurred, and V that the signed difference does not fit in eight bits: so for the machine's `subCore`, for both SBC
immediates, and for `State.subFromA`, which SBC from memory and ISB use. -/
def Obligations.SubtractIsTwosComplement : Prop :=
  (∀ (a m : Byte) (c : Bool),
    let borrow : Nat := if c then 0 else 1
    (subCore a m c).1 = BitVec.ofInt 8 (a.toInt - m.toInt - borrow) ∧
    ((subCore a m c).2.1 = true ↔ m.toNat + borrow ≤ a.toNat) ∧
    ((subCore a m c).2.2 = true ↔ a.toInt - m.toInt - borrow < -128 ∨ 127 < a.toInt - m.toInt - borrow)) ∧
  (∀ (m : Byte) (s : State),
    let t := s.subFromA m
    let borrow : Nat := if s.p.c then 0 else 1
    exec (.sbcEB m) s = .next t ∧ exec (.sbc (.imm m)) s = .next t ∧
    t = { s with a := t.a, p := { s.p with c := t.p.c, v := t.p.v, z := decide (t.a.toNat = 0), n := decide (128 ≤ t.a.toNat) } } ∧
    t.a = BitVec.ofInt 8 (s.a.toInt - m.toInt - borrow) ∧
    (t.p.c = true ↔ m.toNat + borrow ≤ s.a.toNat) ∧
    (t.p.v = true ↔ s.a.toInt - m.toInt - borrow < -128 ∨ 127 < s.a.toInt - m.toInt - borrow))

/-! ## Instructions: loads, stores and transfers -/

/-- 41_load_store_transfer.md R200, R201, R202, 46_undocumented.md R376, R384: LDA, LDX, LDY and LAX in every mode, and LAS, which puts memory
AND SP into A, X and SP. -/
def Obligations.LoadInstructions : Prop :=
  HasRows .lda [(.immediate, 0xA9, 2, false), (.zeroPage, 0xA5, 3, false), (.zeroPageX, 0xB5, 4, false),
    (.absolute, 0xAD, 4, false), (.absoluteX, 0xBD, 4, true), (.absoluteY, 0xB9, 4, true), (.indirectX, 0xA1, 6, false),
    (.indirectY, 0xB1, 5, true)] ∧
  HasRows .ldx [(.immediate, 0xA2, 2, false), (.zeroPage, 0xA6, 3, false), (.zeroPageY, 0xB6, 4, false),
    (.absolute, 0xAE, 4, false), (.absoluteY, 0xBE, 4, true)] ∧
  HasRows .ldy [(.immediate, 0xA0, 2, false), (.zeroPage, 0xA4, 3, false), (.zeroPageX, 0xB4, 4, false),
    (.absolute, 0xAC, 4, false), (.absoluteX, 0xBC, 4, true)] ∧
  HasRows .lax [(.zeroPage, 0xA7, 3, false), (.zeroPageY, 0xB7, 4, false), (.absolute, 0xAF, 4, false),
    (.absoluteY, 0xBF, 4, true), (.indirectX, 0xA3, 6, false), (.indirectY, 0xB3, 5, true)] ∧
  LoadSpec .lda (fun m t => { t with a := m, p := withNZ t.p m }) ∧
  LoadSpec .ldx (fun m t => { t with x := m, p := withNZ t.p m }) ∧
  LoadSpec .ldy (fun m t => { t with y := m, p := withNZ t.p m }) ∧
  LoadSpec .lax (fun m t => { t with a := m, x := m, p := withNZ t.p m }) ∧
  ∀ (w : Word) (s : State),
    HasRow (.las w) 0xBB 3 4 true ∧
    (ReadOk (ea (.absY w) s) s →
      let r := readByte (ea (.absY w) s) s &&& s.sp
      let t := afterOperand (.las w) (.absY w) s
      exec (.las w) s = .next { t with a := r, x := r, sp := r, p := withNZ s.p r }) ∧
    (¬ ReadOk (ea (.absY w) s) s →
      exec (.las w) s = .fault (faultAt (.ppuWriteOnlyRead (ea (.absY w) s)) s))

/-- 41_load_store_transfer.md R203, R204, R205, 46_undocumented.md R375: STA, STX, STY and SAX in every mode, with their frame. -/
def Obligations.StoreInstructions : Prop :=
  HasRows .sta [(.zeroPage, 0x85, 3, false), (.zeroPageX, 0x95, 4, false), (.absolute, 0x8D, 4, false),
    (.absoluteX, 0x9D, 5, false), (.absoluteY, 0x99, 5, false), (.indirectX, 0x81, 6, false), (.indirectY, 0x91, 6, false)] ∧
  HasRows .stx [(.zeroPage, 0x86, 3, false), (.zeroPageY, 0x96, 4, false), (.absolute, 0x8E, 4, false)] ∧
  HasRows .sty [(.zeroPage, 0x84, 3, false), (.zeroPageX, 0x94, 4, false), (.absolute, 0x8C, 4, false)] ∧
  HasRows .sax [(.zeroPage, 0x87, 3, false), (.zeroPageY, 0x97, 4, false), (.absolute, 0x8F, 4, false),
    (.indirectX, 0x83, 6, false)] ∧
  StoreSpec .sta (fun s => s.a) ∧ StoreSpec .stx (fun s => s.x) ∧ StoreSpec .sty (fun s => s.y) ∧
  StoreSpec .sax (fun s => s.a &&& s.x)

/-- 41_load_store_transfer.md R206 to R211: the register transfers; nothing but the destination and, except for TXS, Z and N changes. -/
def Obligations.TransferInstructions : Prop :=
  HasRow .tax 0xAA 1 2 false ∧ HasRow .tay 0xA8 1 2 false ∧ HasRow .txa 0x8A 1 2 false ∧ HasRow .tya 0x98 1 2 false ∧
  HasRow .tsx 0xBA 1 2 false ∧ HasRow .txs 0x9A 1 2 false ∧
  ∀ s : State,
    exec .tax s = .next { s with x := s.a, p := withNZ s.p s.a } ∧
    exec .tay s = .next { s with y := s.a, p := withNZ s.p s.a } ∧
    exec .txa s = .next { s with a := s.x, p := withNZ s.p s.x } ∧
    exec .tya s = .next { s with a := s.y, p := withNZ s.p s.y } ∧
    exec .tsx s = .next { s with x := s.sp, p := withNZ s.p s.sp } ∧
    exec .txs s = .next { s with sp := s.x }

/-! ## Instructions: arithmetic and logic -/

/-- 42_arithmetic_logic.md R231, R232, R234, R235, 46_undocumented.md R383: ADC and both SBC. -/
def Obligations.AddAndSubtract : Prop :=
  HasRows .adc [(.immediate, 0x69, 2, false), (.zeroPage, 0x65, 3, false), (.zeroPageX, 0x75, 4, false),
    (.absolute, 0x6D, 4, false), (.absoluteX, 0x7D, 4, true), (.absoluteY, 0x79, 4, true), (.indirectX, 0x61, 6, false),
    (.indirectY, 0x71, 5, true)] ∧
  HasRows .sbc [(.immediate, 0xE9, 2, false), (.zeroPage, 0xE5, 3, false), (.zeroPageX, 0xF5, 4, false),
    (.absolute, 0xED, 4, false), (.absoluteX, 0xFD, 4, true), (.absoluteY, 0xF9, 4, true), (.indirectX, 0xE1, 6, false),
    (.indirectY, 0xF1, 5, true)] ∧
  LoadSpec .adc (fun m t => withSum t m t.p.c) ∧ LoadSpec .sbc (fun m t => withDifference t m) ∧
  ∀ imm : Byte, HasRow (.sbcEB imm) 0xEB 2 2 false ∧
    ∀ s : State, exec (.sbcEB imm) s = .next (withDifference s imm) ∧ exec (.sbcEB imm) s = exec (.sbc (.imm imm)) s

/-- 42_arithmetic_logic.md R236, R237, R238: AND, ORA and EOR. -/
def Obligations.LogicInstructions : Prop :=
  HasRows .and [(.immediate, 0x29, 2, false), (.zeroPage, 0x25, 3, false), (.zeroPageX, 0x35, 4, false),
    (.absolute, 0x2D, 4, false), (.absoluteX, 0x3D, 4, true), (.absoluteY, 0x39, 4, true), (.indirectX, 0x21, 6, false),
    (.indirectY, 0x31, 5, true)] ∧
  HasRows .ora [(.immediate, 0x09, 2, false), (.zeroPage, 0x05, 3, false), (.zeroPageX, 0x15, 4, false),
    (.absolute, 0x0D, 4, false), (.absoluteX, 0x1D, 4, true), (.absoluteY, 0x19, 4, true), (.indirectX, 0x01, 6, false),
    (.indirectY, 0x11, 5, true)] ∧
  HasRows .eor [(.immediate, 0x49, 2, false), (.zeroPage, 0x45, 3, false), (.zeroPageX, 0x55, 4, false),
    (.absolute, 0x4D, 4, false), (.absoluteX, 0x5D, 4, true), (.absoluteY, 0x59, 4, true), (.indirectX, 0x41, 6, false),
    (.indirectY, 0x51, 5, true)] ∧
  LoadSpec .and (fun m t => { t with a := t.a &&& m, p := withNZ t.p (t.a &&& m) }) ∧
  LoadSpec .ora (fun m t => { t with a := t.a ||| m, p := withNZ t.p (t.a ||| m) }) ∧
  LoadSpec .eor (fun m t => { t with a := t.a ^^^ m, p := withNZ t.p (t.a ^^^ m) })

/-- 42_arithmetic_logic.md R233, R239 to R242: the compares and BIT; no register changes, and V only by BIT. -/
def Obligations.CompareInstructions : Prop :=
  HasRows .cmp [(.immediate, 0xC9, 2, false), (.zeroPage, 0xC5, 3, false), (.zeroPageX, 0xD5, 4, false),
    (.absolute, 0xCD, 4, false), (.absoluteX, 0xDD, 4, true), (.absoluteY, 0xD9, 4, true), (.indirectX, 0xC1, 6, false),
    (.indirectY, 0xD1, 5, true)] ∧
  HasRows .cpx [(.immediate, 0xE0, 2, false), (.zeroPage, 0xE4, 3, false), (.absolute, 0xEC, 4, false)] ∧
  HasRows .cpy [(.immediate, 0xC0, 2, false), (.zeroPage, 0xC4, 3, false), (.absolute, 0xCC, 4, false)] ∧
  HasRows .bit [(.zeroPage, 0x24, 3, false), (.absolute, 0x2C, 4, false)] ∧
  LoadSpec .cmp (fun m t => { t with p := withCompare t.p t.a m }) ∧
  LoadSpec .cpx (fun m t => { t with p := withCompare t.p t.x m }) ∧
  LoadSpec .cpy (fun m t => { t with p := withCompare t.p t.y m }) ∧
  LoadSpec .bit (fun m t => { t with p := { t.p with
    z := decide ((t.a &&& m).toNat = 0)
    n := decide (128 ≤ m.toNat)
    v := decide (64 ≤ m.toNat % 128) } })

/-- 42_arithmetic_logic.md R243 to R248: INC and DEC of memory, INX, INY, DEX and DEY; C and V never change. -/
def Obligations.IncrementAndDecrement : Prop :=
  HasRows .inc [(.zeroPage, 0xE6, 5, false), (.zeroPageX, 0xF6, 6, false), (.absolute, 0xEE, 6, false),
    (.absoluteX, 0xFE, 7, false)] ∧
  HasRows .dec [(.zeroPage, 0xC6, 5, false), (.zeroPageX, 0xD6, 6, false), (.absolute, 0xCE, 6, false),
    (.absoluteX, 0xDE, 7, false)] ∧
  HasRow .inx 0xE8 1 2 false ∧ HasRow .iny 0xC8 1 2 false ∧ HasRow .dex 0xCA 1 2 false ∧ HasRow .dey 0x88 1 2 false ∧
  RmwSpec .inc (fun _ m => m + 1) (fun _ m t => { t with p := withNZ t.p (m + 1) }) ∧
  RmwSpec .dec (fun _ m => m - 1) (fun _ m t => { t with p := withNZ t.p (m - 1) }) ∧
  ∀ s : State,
    exec .inx s = .next { s with x := s.x + 1, p := withNZ s.p (s.x + 1) } ∧
    exec .iny s = .next { s with y := s.y + 1, p := withNZ s.p (s.y + 1) } ∧
    exec .dex s = .next { s with x := s.x - 1, p := withNZ s.p (s.x - 1) } ∧
    exec .dey s = .next { s with y := s.y - 1, p := withNZ s.p (s.y - 1) }

/-! ## Instructions: shifts -/

/-- 43_shift_rotate.md R280 to R284: ASL, LSR, ROL and ROR of the accumulator and of memory. -/
def Obligations.ShiftInstructions : Prop :=
  HasRows .asl [(.accumulator, 0x0A, 2, false), (.zeroPage, 0x06, 5, false), (.zeroPageX, 0x16, 6, false),
    (.absolute, 0x0E, 6, false), (.absoluteX, 0x1E, 7, false)] ∧
  HasRows .lsr [(.accumulator, 0x4A, 2, false), (.zeroPage, 0x46, 5, false), (.zeroPageX, 0x56, 6, false),
    (.absolute, 0x4E, 6, false), (.absoluteX, 0x5E, 7, false)] ∧
  HasRows .rol [(.accumulator, 0x2A, 2, false), (.zeroPage, 0x26, 5, false), (.zeroPageX, 0x36, 6, false),
    (.absolute, 0x2E, 6, false), (.absoluteX, 0x3E, 7, false)] ∧
  HasRows .ror [(.accumulator, 0x6A, 2, false), (.zeroPage, 0x66, 5, false), (.zeroPageX, 0x76, 6, false),
    (.absolute, 0x6E, 6, false), (.absoluteX, 0x7E, 7, false)] ∧
  RmwSpec .asl (fun _ m => shiftedLeft m false)
    (fun _ m t => { t with p := withShift t.p (topBit m) (shiftedLeft m false) }) ∧
  RmwSpec .lsr (fun _ m => shiftedRight m false)
    (fun _ m t => { t with p := withShift t.p (lowBit m) (shiftedRight m false) }) ∧
  RmwSpec .rol (fun c m => shiftedLeft m c)
    (fun c m t => { t with p := withShift t.p (topBit m) (shiftedLeft m c) }) ∧
  RmwSpec .ror (fun c m => shiftedRight m c)
    (fun c m t => { t with p := withShift t.p (lowBit m) (shiftedRight m c) }) ∧
  ∀ s : State,
    exec (.asl .acc) s = .next { s with
      a := shiftedLeft s.a false, p := withShift s.p (topBit s.a) (shiftedLeft s.a false) } ∧
    exec (.lsr .acc) s = .next { s with
      a := shiftedRight s.a false, p := withShift s.p (lowBit s.a) (shiftedRight s.a false) } ∧
    exec (.rol .acc) s = .next { s with
      a := shiftedLeft s.a s.p.c, p := withShift s.p (topBit s.a) (shiftedLeft s.a s.p.c) } ∧
    exec (.ror .acc) s = .next { s with
      a := shiftedRight s.a s.p.c, p := withShift s.p (lowBit s.a) (shiftedRight s.a s.p.c) }

/-! ## Instructions: control flow -/

/-- 44_control_flow.md R300 to R308: the eight branches, taken and not taken. -/
def Obligations.BranchInstructions : Prop :=
  (∀ off : Byte, HasRow (.bcc off) 0x90 2 2 false ∧ HasRow (.bcs off) 0xB0 2 2 false ∧ HasRow (.beq off) 0xF0 2 2 false ∧
    HasRow (.bne off) 0xD0 2 2 false ∧ HasRow (.bmi off) 0x30 2 2 false ∧ HasRow (.bpl off) 0x10 2 2 false ∧
    HasRow (.bvc off) 0x50 2 2 false ∧ HasRow (.bvs off) 0x70 2 2 false) ∧
  BranchSpec .bcc (fun f => !f.c) ∧ BranchSpec .bcs (fun f => f.c) ∧ BranchSpec .beq (fun f => f.z) ∧
  BranchSpec .bne (fun f => !f.z) ∧ BranchSpec .bmi (fun f => f.n) ∧ BranchSpec .bpl (fun f => !f.n) ∧
  BranchSpec .bvc (fun f => !f.v) ∧ BranchSpec .bvs (fun f => f.v)

/-- 44_control_flow.md R310, R311, 40_addressing.md R181: JMP, direct and through a pointer whose high byte comes from the pointer's own
page; a pointer byte in a write-only PPU register faults. -/
def Obligations.JumpInstructions : Prop :=
  ∀ (w : Word) (s : State),
    HasRow (.jmp w) 0x4C 3 3 false ∧ HasRow (.jmpInd w) 0x6C 3 5 false ∧
    exec (.jmp w) s = .next { s with pc := w } ∧
    (let h : Word := BitVec.ofNat 16 (w.toNat / 256 * 256 + (w.toNat + 1) % 256)
     let u := afterRead w s
     (ReadOk w s → ReadOk h u → exec (.jmpInd w) s = .next { afterRead h u with
        pc := BitVec.ofNat 16 (256 * (readByte h u).toNat + (readByte w s).toNat) }) ∧
     (¬ ReadOk w s → exec (.jmpInd w) s = .fault (faultAt (.ppuWriteOnlyRead w) s)) ∧
     (ReadOk w s → ¬ ReadOk h u → exec (.jmpInd w) s = .fault (faultAt (.ppuWriteOnlyRead h) u)))

/-- 44_control_flow.md R312, R313, 45_stack_flags_misc.md R340 to R342: JSR pushes the address of its last byte, high byte first, and
jumps; RTS pulls it and adds 1; so RTS at the target of a JSR comes back behind it. -/
def Obligations.SubroutineInstructions : Prop :=
  (∀ w : Word, HasRow (.jsr w) 0x20 3 6 false) ∧ HasRow .rts 0x60 1 6 false ∧
  ∀ (w : Word) (s : State),
    exec (.jsr w) s = .next { s with
      pc := w
      sp := s.sp - 2
      ram := (s.ram.write (0x100 + s.sp.toNat) (BitVec.ofNat 8 ((s.pc - 1).toNat / 256))).write
        (0x100 + (s.sp - 1).toNat) (BitVec.ofNat 8 ((s.pc - 1).toNat % 256)) } ∧
    exec .rts s = .next { s with
      pc := BitVec.ofNat 16 (256 * (s.ram.read (0x100 + (s.sp + 2).toNat)).toNat +
        (s.ram.read (0x100 + (s.sp + 1).toNat)).toNat) + 1
      sp := s.sp + 2 } ∧
    ∀ t, exec (.jsr w) s = .next t → ∃ u, exec .rts t = .next u ∧ u.pc = s.pc ∧ u.sp = s.sp ∧ u.p = s.p ∧ u.a = s.a

/-- 44_control_flow.md R314: RTI pulls P, with B clear and U set, and then PC. -/
def Obligations.RtiInstruction : Prop :=
  HasRow .rti 0x40 1 6 false ∧
  ∀ s : State, exec .rti s = .next { s with
    p := { Flags.ofByte (s.ram.read (0x100 + (s.sp + 1).toNat)) with b := false, u := true }
    pc := BitVec.ofNat 16 (256 * (s.ram.read (0x100 + (s.sp + 3).toNat)).toNat +
      (s.ram.read (0x100 + (s.sp + 2).toNat)).toNat)
    sp := s.sp + 3 }

/-- 44_control_flow.md R330, 46_undocumented.md R420: BRK halts and JAM jams, with no other effect and no cycles; under
`JAM_POLICY = nop` JAM does nothing and takes 2 cycles. -/
def Obligations.HaltAndJam : Prop :=
  HasRow .brk 0x00 1 7 false ∧
  (∀ code ∈ [(0x02 : Byte), 0x12, 0x22, 0x32, 0x42, 0x52, 0x62, 0x72, 0x92, 0xB2, 0xD2, 0xF2],
    HasRow (.jam code) code 1 2 false) ∧
  ∀ (s : State) (code : Byte), (Instr.jam code).wellFormed = true →
    exec .brk s = .next { s with cpuRun := .halted } ∧ baseCharge s.params .brk = 0 ∧
    (s.params.jamPolicy = .jam →
      exec (.jam code) s = .next { s with cpuRun := .jammed } ∧ baseCharge s.params (.jam code) = 0) ∧
    (s.params.jamPolicy = .nop → exec (.jam code) s = .next s ∧ baseCharge s.params (.jam code) = 2)

/-! ## Instructions: stack, flags and no-operations -/

/-- 45_stack_flags_misc.md R340, R341, R343 to R346: PHA, PHP, PLA and PLP; the stack stays in page 1 and SP wraps. -/
def Obligations.StackInstructions : Prop :=
  HasRow .pha 0x48 1 3 false ∧ HasRow .php 0x08 1 3 false ∧ HasRow .pla 0x68 1 4 false ∧ HasRow .plp 0x28 1 4 false ∧
  ∀ s : State,
    exec .pha s = .next { s with ram := s.ram.write (0x100 + s.sp.toNat) s.a, sp := s.sp - 1 } ∧
    exec .php s = .next { s with
      ram := s.ram.write (0x100 + s.sp.toNat) { s.p with b := true, u := true }.toByte, sp := s.sp - 1 } ∧
    (let m := s.ram.read (0x100 + (s.sp + 1).toNat)
     exec .pla s = .next { s with a := m, p := withNZ s.p m, sp := s.sp + 1 } ∧
     exec .plp s = .next { s with p := { Flags.ofByte m with b := false, u := true }, sp := s.sp + 1 })

/-- 45_stack_flags_misc.md R355: the round-trip law of the stack, for a byte and a word, for PHA then PLA and for PHP then PLP, with RAM
changed only at the stack bytes. -/
def Obligations.PushThenPop : Prop :=
  ∀ (v : Byte) (w : Word) (s : State),
    ((s.push v).popByte = v ∧ (s.push v).popped.sp = s.sp ∧
      ∀ k, k ≠ 0x100 + s.sp.toNat → (s.push v).popped.ram.read k = s.ram.read k) ∧
    ((s.push16 w).popWord = w ∧ (s.push16 w).popped16.sp = s.sp ∧
      ∀ k, k ≠ 0x100 + s.sp.toNat → k ≠ 0x100 + (s.sp - 1).toNat → (s.push16 w).popped16.ram.read k = s.ram.read k) ∧
    (∃ t u, exec .pha s = .next t ∧ exec .pla t = .next u ∧ u.a = s.a ∧ u.sp = s.sp ∧ u.p = withNZ s.p s.a) ∧
    (∃ t u, exec .php s = .next t ∧ exec .plp t = .next u ∧ u.p = { s.p with b := false, u := true } ∧ u.sp = s.sp ∧
      u.a = s.a)

/-- 45_stack_flags_misc.md R347 to R353: each flag instruction changes its one bit of P. -/
def Obligations.FlagInstructions : Prop :=
  HasRow .clc 0x18 1 2 false ∧ HasRow .cld 0xD8 1 2 false ∧ HasRow .cli 0x58 1 2 false ∧ HasRow .clv 0xB8 1 2 false ∧
  HasRow .sec 0x38 1 2 false ∧ HasRow .sed 0xF8 1 2 false ∧ HasRow .sei 0x78 1 2 false ∧
  ∀ s : State,
    exec .clc s = .next { s with p := { s.p with c := false } } ∧ exec .cld s = .next { s with p := { s.p with d := false } } ∧
    exec .cli s = .next { s with p := { s.p with i := false } } ∧ exec .clv s = .next { s with p := { s.p with v := false } } ∧
    exec .sec s = .next { s with p := { s.p with c := true } } ∧ exec .sed s = .next { s with p := { s.p with d := true } } ∧
    exec .sei s = .next { s with p := { s.p with i := true } }

/-- 45_stack_flags_misc.md R354, 46_undocumented.md R391, R392, R393: every NOP. One with a memory operand reads it, with that read's
effect and fault, and discards the byte; the others change nothing. -/
def Obligations.NopInstructions : Prop :=
  HasRow .nop 0xEA 1 2 false ∧
  (∀ code ∈ [(0x1A : Byte), 0x3A, 0x5A, 0x7A, 0xDA, 0xFA], HasRow (.nopImplied code) code 1 2 false) ∧
  (∀ imm, ∀ code ∈ [(0x80 : Byte), 0x82, 0x89, 0xC2, 0xE2], HasRow (.nopImmediate code imm) code 2 2 false) ∧
  (∀ code ∈ [(0x04 : Byte), 0x44, 0x64], HasRows (.nopMemory code) [(.zeroPage, code, 3, false)]) ∧
  (∀ code ∈ [(0x14 : Byte), 0x34, 0x54, 0x74, 0xD4, 0xF4], HasRows (.nopMemory code) [(.zeroPageX, code, 4, false)]) ∧
  HasRows (.nopMemory 0x0C) [(.absolute, 0x0C, 4, false)] ∧
  (∀ code ∈ [(0x1C : Byte), 0x3C, 0x5C, 0x7C, 0xDC, 0xFC], HasRows (.nopMemory code) [(.absoluteX, code, 4, true)]) ∧
  (∀ code : Byte, LoadSpec (.nopMemory code) (fun _ t => t)) ∧
  ∀ (s : State) (code imm : Byte), exec .nop s = .next s ∧ exec (.nopImplied code) s = .next s ∧
    exec (.nopImmediate code imm) s = .next s

/-! ## Instructions: undocumented -/

/-- 46_undocumented.md R371 to R374, R377, R378: the six read-modify-write combinations. -/
def Obligations.CombinedRmwInstructions : Prop :=
  (∀ p : (Operand → Instr) × Byte,
    p ∈ [(Instr.slo, (0x00 : Byte)), (.rla, 0x20), (.sre, 0x40), (.rra, 0x60), (.dcp, 0xC0), (.isb, 0xE0)] →
    HasRows p.1 [(.zeroPage, p.2 + 0x07, 5, false), (.zeroPageX, p.2 + 0x17, 6, false), (.absolute, p.2 + 0x0F, 6, false),
      (.absoluteX, p.2 + 0x1F, 7, false), (.absoluteY, p.2 + 0x1B, 7, false), (.indirectX, p.2 + 0x03, 8, false),
      (.indirectY, p.2 + 0x13, 8, false)]) ∧
  RmwSpec .slo (fun _ m => shiftedLeft m false) (fun _ m t =>
    let r := t.a ||| shiftedLeft m false
    { t with a := r, p := withShift t.p (topBit m) r }) ∧
  RmwSpec .rla (fun c m => shiftedLeft m c) (fun c m t =>
    let r := t.a &&& shiftedLeft m c
    { t with a := r, p := withShift t.p (topBit m) r }) ∧
  RmwSpec .sre (fun _ m => shiftedRight m false) (fun _ m t =>
    let r := t.a ^^^ shiftedRight m false
    { t with a := r, p := withShift t.p (lowBit m) r }) ∧
  RmwSpec .rra (fun c m => shiftedRight m c) (fun c m t => withSum t (shiftedRight m c) (lowBit m)) ∧
  RmwSpec .dcp (fun _ m => m - 1) (fun _ m t => { t with p := withCompare t.p t.a (m - 1) }) ∧
  RmwSpec .isb (fun _ m => m + 1) (fun _ m t => withDifference t (m + 1))

/-- 46_undocumented.md R379 to R382, R385, R386: the immediate combinations ANC, ALR, ARR, AXS, XAA and LXA. -/
def Obligations.ImmediateCombinations : Prop :=
  ∀ (imm : Byte) (s : State),
    HasRow (.anc 0x0B imm) 0x0B 2 2 false ∧ HasRow (.anc 0x2B imm) 0x2B 2 2 false ∧ HasRow (.alr imm) 0x4B 2 2 false ∧
    HasRow (.arr imm) 0x6B 2 2 false ∧ HasRow (.axs imm) 0xCB 2 2 false ∧ HasRow (.xaa imm) 0x8B 2 2 false ∧
    HasRow (.lxa imm) 0xAB 2 2 false ∧
    (∀ code, exec (.anc code imm) s = .next { s with
      a := s.a &&& imm, p := withShift s.p (topBit (s.a &&& imm)) (s.a &&& imm) }) ∧
    exec (.alr imm) s = .next { s with
      a := shiftedRight (s.a &&& imm) false
      p := withShift s.p (lowBit (s.a &&& imm)) (shiftedRight (s.a &&& imm) false) } ∧
    (let r := shiftedRight (s.a &&& imm) s.p.c
     exec (.arr imm) s = .next { s with
       a := r
       p := withNZ { s.p with
         c := decide (64 ≤ r.toNat % 128)
         v := decide (¬ (64 ≤ r.toNat % 128 ↔ 32 ≤ r.toNat % 64)) } r }) ∧
    exec (.axs imm) s = .next { s with x := (s.a &&& s.x) - imm, p := withCompare s.p (s.a &&& s.x) imm } ∧
    (let r := (s.a ||| s.params.aneMagic) &&& s.x &&& imm
     exec (.xaa imm) s = .next { s with a := r, p := withNZ s.p r }) ∧
    (let r := (s.a ||| s.params.lxaMagic) &&& imm
     exec (.lxa imm) s = .next { s with a := r, x := r, p := withNZ s.p r })

/-- 46_undocumented.md R421, R387 to R390: AHX, SHX, SHY and TAS; TAS writes SP first, and keeps it where the store faults. Under
`UNSTABLE_STORE = any` the byte is the model's free value (log 10). -/
def Obligations.UnstableStores : Prop :=
  HasRows .ahx [(.absoluteY, 0x9F, 5, false), (.indirectY, 0x93, 6, false)] ∧
  (∀ (o : Operand) (s : State), (Instr.ahx o).wellFormed = true → UnstableSpec (.ahx o) o (s.a &&& s.x) s s) ∧
  ∀ (w : Word) (s : State),
    HasRow (.shx w) 0x9E 3 5 false ∧ HasRow (.shy w) 0x9C 3 5 false ∧ HasRow (.tas w) 0x9B 3 5 false ∧
    UnstableSpec (.shx w) (.absY w) s.x s s ∧ UnstableSpec (.shy w) (.absX w) s.y s s ∧
    UnstableSpec (.tas w) (.absY w) (s.a &&& s.x) { s with sp := s.a &&& s.x } s
end

