-- ==== Sys2Proof/Laws/Memory.lean ====
section
/-! SUPPORT. The laws of the memory type: a read after a write, and the canonical form and the bound kept by every operation. -/

namespace Sys2Proof.Machine

@[simp] theorem Memory.read_nil (k : Nat) : Memory.read [] k = unlistedByte := rfl

theorem Memory.read_erase_same (m : Memory) (k : Nat) : (Memory.erase m k).read k = unlistedByte := by
  induction m with
  | nil => rfl
  | cons c rest ih =>
    obtain ⟨j, b⟩ := c
    by_cases h : j = k <;> simp [Memory.erase, Memory.read, h, ih]

theorem Memory.read_erase_other (m : Memory) {k j : Nat} (h : j ≠ k) : (Memory.erase m k).read j = m.read j := by
  induction m with
  | nil => rfl
  | cons c rest ih =>
    obtain ⟨i, b⟩ := c
    by_cases hi : i = k
    · simp [Memory.erase, Memory.read, hi, ih, Ne.symm h]
    · by_cases hj : i = j <;> simp [Memory.erase, Memory.read, hi, hj, ih, h]

theorem Memory.read_insert_other (m : Memory) {k j : Nat} (v : Byte) (h : j ≠ k) :
    (Memory.insert m k v).read j = m.read j := by
  induction m with
  | nil => simp [Memory.insert, Memory.read, Ne.symm h]
  | cons c rest ih =>
    obtain ⟨i, b⟩ := c
    by_cases hk : k < i <;> simp [Memory.insert, Memory.read, hk, Ne.symm h, ih]

/-- The cells of index `k` are gone. -/
theorem Memory.mem_erase {m : Memory} {k : Nat} {c : Host.Cell} : c ∈ Memory.erase m k ↔ c ∈ m ∧ c.1 ≠ k := by
  induction m with
  | nil => simp [Memory.erase]
  | cons d rest ih =>
    obtain ⟨j, b⟩ := d
    by_cases h : j = k
    · subst h
      simp only [Memory.erase, if_true, ih, List.mem_cons]
      constructor
      · rintro ⟨h1, h2⟩; exact ⟨.inr h1, h2⟩
      · rintro ⟨rfl | h1, h2⟩
        · exact absurd rfl h2
        · exact ⟨h1, h2⟩
    · simp only [Memory.erase, if_neg h, List.mem_cons, ih]
      constructor
      · rintro (rfl | ⟨h1, h2⟩)
        · exact ⟨.inl rfl, h⟩
        · exact ⟨.inr h1, h2⟩
      · rintro ⟨rfl | h1, h2⟩
        · exact .inl rfl
        · exact .inr ⟨h1, h2⟩

theorem Memory.read_insert_same (m : Memory) (k : Nat) (v : Byte) (h : ∀ c ∈ m, c.1 ≠ k) :
    (Memory.insert m k v).read k = v := by
  induction m with
  | nil => simp [Memory.insert, Memory.read]
  | cons c rest ih =>
    obtain ⟨j, b⟩ := c
    have hj : j ≠ k := h (j, b) (by simp)
    by_cases hk : k < j
    · simp [Memory.insert, Memory.read, hk]
    · simp [Memory.insert, Memory.read, hk, hj, ih fun c hc => h c (by simp [hc])]

/-- A read of the index just written gives the byte written. -/
@[simp] theorem Memory.read_write_same (m : Memory) (k : Nat) (v : Byte) : (m.write k v).read k = v := by
  unfold Memory.write
  split
  · next h => rw [Memory.read_erase_same, h]
  · exact Memory.read_insert_same _ _ _ fun c hc => (Memory.mem_erase.mp hc).2

/-- A write leaves every other index as it was. -/
theorem Memory.read_write_other (m : Memory) {k j : Nat} (v : Byte) (h : j ≠ k) : (m.write k v).read j = m.read j := by
  unfold Memory.write
  split
  · exact Memory.read_erase_other m h
  · rw [Memory.read_insert_other _ _ h, Memory.read_erase_other m h]

/-- A write as one formula. -/
theorem Memory.read_write (m : Memory) (k j : Nat) (v : Byte) :
    (m.write k v).read j = if j = k then v else m.read j := by
  by_cases h : j = k
  · subst h; simp
  · rw [if_neg h, Memory.read_write_other m v h]

theorem Memory.wfAbove_weaken {k j : Nat} {m : Memory} (hjk : j ≤ k) (h : Memory.wfAbove k m = true) :
    Memory.wfAbove j m = true := by
  cases m with
  | nil => rfl
  | cons c rest =>
    obtain ⟨i, b⟩ := c
    simp only [Memory.wfAbove, Bool.and_eq_true, decide_eq_true_eq] at h ⊢
    exact ⟨⟨by omega, h.1.2⟩, h.2⟩

theorem Memory.wf_of_wfAbove {k : Nat} {m : Memory} (h : Memory.wfAbove k m = true) : m.wf = true := by
  cases m with
  | nil => rfl
  | cons c rest =>
    obtain ⟨i, b⟩ := c
    simp only [Memory.wfAbove, Memory.wf, Bool.and_eq_true, decide_eq_true_eq] at h ⊢
    exact ⟨h.1.2, h.2⟩

theorem Memory.wfAbove_erase {j : Nat} {m : Memory} (k : Nat) (h : Memory.wfAbove j m = true) :
    Memory.wfAbove j (Memory.erase m k) = true := by
  induction m generalizing j with
  | nil => rfl
  | cons c rest ih =>
    obtain ⟨i, b⟩ := c
    simp only [Memory.wfAbove, Bool.and_eq_true, decide_eq_true_eq] at h
    unfold Memory.erase
    split
    · exact Memory.wfAbove_weaken (by omega) (ih h.2)
    · simp only [Memory.wfAbove, Bool.and_eq_true, decide_eq_true_eq]
      exact ⟨h.1, ih h.2⟩

theorem Memory.wfAbove_insert {j k : Nat} {m : Memory} {v : Byte} (hjk : j < k) (hv : v ≠ unlistedByte)
    (hm : ∀ c ∈ m, c.1 ≠ k) (h : Memory.wfAbove j m = true) : Memory.wfAbove j (Memory.insert m k v) = true := by
  induction m generalizing j with
  | nil => simp [Memory.insert, Memory.wfAbove, hjk, hv]
  | cons c rest ih =>
    obtain ⟨i, b⟩ := c
    have hi : i ≠ k := hm (i, b) (by simp)
    simp only [Memory.wfAbove, Bool.and_eq_true, decide_eq_true_eq] at h
    unfold Memory.insert
    split
    · next hki => simp [Memory.wfAbove, hjk, hv, hki, h.1.2, h.2]
    · next hki =>
      simp only [Memory.wfAbove, Bool.and_eq_true, decide_eq_true_eq]
      exact ⟨h.1, ih (by omega) (fun c hc => hm c (by simp [hc])) h.2⟩

theorem Memory.wf_erase {m : Memory} (k : Nat) (h : m.wf = true) : (Memory.erase m k).wf = true := by
  induction m with
  | nil => rfl
  | cons c rest ih =>
    obtain ⟨i, b⟩ := c
    simp only [Memory.wf, Bool.and_eq_true] at h
    unfold Memory.erase
    split
    · exact ih (Memory.wf_of_wfAbove h.2)
    · simp only [Memory.wf, Bool.and_eq_true]
      exact ⟨h.1, Memory.wfAbove_erase k h.2⟩

theorem Memory.wf_insert {k : Nat} {m : Memory} {v : Byte} (hv : v ≠ unlistedByte) (hm : ∀ c ∈ m, c.1 ≠ k)
    (h : m.wf = true) : (Memory.insert m k v).wf = true := by
  cases m with
  | nil => simp [Memory.insert, Memory.wf, Memory.wfAbove, hv]
  | cons c rest =>
    obtain ⟨i, b⟩ := c
    have hi : i ≠ k := hm (i, b) (by simp)
    simp only [Memory.wf, Bool.and_eq_true] at h
    unfold Memory.insert
    split
    · next hki => simp [Memory.wf, Memory.wfAbove, hv, hki, h.1, h.2]
    · next hki =>
      simp only [Memory.wf, Bool.and_eq_true]
      exact ⟨h.1, Memory.wfAbove_insert (by omega) hv (fun c hc => hm c (by simp [hc])) h.2⟩

/-- Every write keeps the canonical form. -/
theorem Memory.wf_write {m : Memory} (k : Nat) (v : Byte) (h : m.wf = true) : (m.write k v).wf = true := by
  unfold Memory.write
  split
  · exact Memory.wf_erase k h
  · next hv => exact Memory.wf_insert hv (fun c hc => (Memory.mem_erase.mp hc).2) (Memory.wf_erase k h)

theorem Memory.within_iff {n : Nat} {m : Memory} : Memory.within n m = true ↔ ∀ c ∈ m, c.1 < n := by
  induction m with
  | nil => simp [Memory.within]
  | cons c rest ih =>
    obtain ⟨j, b⟩ := c
    simp [Memory.within, ih]

theorem Memory.mem_insert {m : Memory} {k : Nat} {v : Byte} {c : Host.Cell} (h : c ∈ Memory.insert m k v) :
    c = (k, v) ∨ c ∈ m := by
  induction m with
  | nil => simpa [Memory.insert] using h
  | cons d rest ih =>
    obtain ⟨j, b⟩ := d
    unfold Memory.insert at h
    split at h
    · simpa using h
    · rcases List.mem_cons.mp h with rfl | h
      · exact .inr (by simp)
      · rcases ih h with h | h
        · exact .inl h
        · exact .inr (by simp [h])

/-- A write inside the memory keeps every index inside it. -/
theorem Memory.within_write {n : Nat} {m : Memory} {k : Nat} (v : Byte) (hk : k < n) (h : Memory.within n m = true) :
    Memory.within n (m.write k v) = true := by
  rw [Memory.within_iff] at h ⊢
  intro c hc
  unfold Memory.write at hc
  split at hc
  · exact h c (Memory.mem_erase.mp hc).1
  · rcases Memory.mem_insert hc with rfl | hc
    · exact hk
    · exact h c (Memory.mem_erase.mp hc).1

theorem Memory.read_of_wfAbove {k j : Nat} {m : Memory} (h : Memory.wfAbove k m = true) (hj : j ≤ k) :
    m.read j = unlistedByte := by
  induction m generalizing k with
  | nil => rfl
  | cons c rest ih =>
    obtain ⟨i, b⟩ := c
    simp only [Memory.wfAbove, Bool.and_eq_true, decide_eq_true_eq] at h
    have hi : i ≠ j := by omega
    simp only [Memory.read, hi, if_false]
    exact ih h.2 (by omega)

theorem Memory.read_head_ne {i : Nat} {b : Byte} {rest : Memory} (h : Memory.wf ((i, b) :: rest) = true) :
    Memory.read ((i, b) :: rest) i ≠ unlistedByte := by
  simp only [Memory.wf, Bool.and_eq_true, bne_iff_ne] at h
  simpa [Memory.read] using h.1

/-- Canonical memories that read alike are equal data. -/
theorem Memory.ext_read {m m' : Memory} (h : m.wf = true) (h' : m'.wf = true) (hr : ∀ k, m.read k = m'.read k) :
    m = m' := by
  induction m generalizing m' with
  | nil =>
    cases m' with
    | nil => rfl
    | cons c rest => exact absurd (hr c.1).symm (Memory.read_head_ne h')
  | cons c rest ih =>
    obtain ⟨i, b⟩ := c
    cases m' with
    | nil => exact absurd (hr i) (Memory.read_head_ne h)
    | cons c' rest' =>
      obtain ⟨i', b'⟩ := c'
      have hne := Memory.read_head_ne h
      have hne' := Memory.read_head_ne h'
      have hw := h
      have hw' := h'
      simp only [Memory.wf, Bool.and_eq_true] at hw hw'
      have hii : i = i' := by
        rcases Nat.lt_trichotomy i i' with hlt | heq | hgt
        · exfalso
          have h1 := hr i
          rw [show Memory.read ((i', b') :: rest') i = unlistedByte by
            simp only [Memory.read, Nat.ne_of_gt hlt, if_false]
            exact Memory.read_of_wfAbove hw'.2 (by omega)] at h1
          exact hne h1
        · exact heq
        · exfalso
          have h1 := hr i'
          rw [show Memory.read ((i, b) :: rest) i' = unlistedByte by
            simp only [Memory.read, Nat.ne_of_gt hgt, if_false]
            exact Memory.read_of_wfAbove hw.2 (by omega)] at h1
          exact hne' h1.symm
      subst hii
      have hbb : b = b' := by simpa [Memory.read] using hr i
      subst hbb
      congr 1
      refine ih (Memory.wf_of_wfAbove hw.2) (Memory.wf_of_wfAbove hw'.2) fun k => ?_
      by_cases hk : i = k
      · subst hk
        rw [Memory.read_of_wfAbove hw.2 (by omega), Memory.read_of_wfAbove hw'.2 (by omega)]
      · simpa [Memory.read, hk] using hr k

/-- A run of unlisted bytes is the empty memory. -/
theorem Memory.ofBytesFrom_zero (n k : Nat) :
    Memory.ofBytesFrom k (List.replicate n unlistedByte) = [] := by
  induction n generalizing k with
  | zero => rfl
  | succ n ih => simp [List.replicate_succ, Memory.ofBytesFrom, ih]

end Sys2Proof.Machine
end

