-- ==== Sys2Proof/Laws/State.lean ====
section
/-! SUPPORT. One lemma per field per update of the state and of the flags, a bus tick among them, true by rfl. -/

namespace Sys2Proof.Machine

@[simp] theorem State.setA_a (s : State) (v : Byte) : (s.setA v).a = v := rfl
@[simp] theorem State.setA_x (s : State) (v : Byte) : (s.setA v).x = s.x := rfl
@[simp] theorem State.setA_y (s : State) (v : Byte) : (s.setA v).y = s.y := rfl
@[simp] theorem State.setA_sp (s : State) (v : Byte) : (s.setA v).sp = s.sp := rfl
@[simp] theorem State.setA_pc (s : State) (v : Byte) : (s.setA v).pc = s.pc := rfl
@[simp] theorem State.setA_p (s : State) (v : Byte) : (s.setA v).p = s.p := rfl
@[simp] theorem State.setA_cpuRun (s : State) (v : Byte) : (s.setA v).cpuRun = s.cpuRun := rfl
@[simp] theorem State.setA_ctx (s : State) (v : Byte) : (s.setA v).ctx = s.ctx := rfl
@[simp] theorem State.setA_ram (s : State) (v : Byte) : (s.setA v).ram = s.ram := rfl
@[simp] theorem State.setA_prg (s : State) (v : Byte) : (s.setA v).prg = s.prg := rfl
@[simp] theorem State.setA_prgSize (s : State) (v : Byte) : (s.setA v).prgSize = s.prgSize := rfl
@[simp] theorem State.setA_busCycles (s : State) (v : Byte) : (s.setA v).busCycles = s.busCycles := rfl
@[simp] theorem State.setA_ppu (s : State) (v : Byte) : (s.setA v).ppu = s.ppu := rfl
@[simp] theorem State.setA_params (s : State) (v : Byte) : (s.setA v).params = s.params := rfl
@[simp] theorem State.setA_input (s : State) (v : Byte) : (s.setA v).input = s.input := rfl
@[simp] theorem State.setA_handler (s : State) (v : Byte) : (s.setA v).handler = s.handler := rfl
@[simp] theorem State.setA_inputWrites (s : State) (v : Byte) : (s.setA v).inputWrites = s.inputWrites := rfl
@[simp] theorem State.setA_frameEvents (s : State) (v : Byte) : (s.setA v).frameEvents = s.frameEvents := rfl
@[simp] theorem State.setA_draws (s : State) (v : Byte) : (s.setA v).draws = s.draws := rfl

@[simp] theorem State.setX_a (s : State) (v : Byte) : (s.setX v).a = s.a := rfl
@[simp] theorem State.setX_x (s : State) (v : Byte) : (s.setX v).x = v := rfl
@[simp] theorem State.setX_y (s : State) (v : Byte) : (s.setX v).y = s.y := rfl
@[simp] theorem State.setX_sp (s : State) (v : Byte) : (s.setX v).sp = s.sp := rfl
@[simp] theorem State.setX_pc (s : State) (v : Byte) : (s.setX v).pc = s.pc := rfl
@[simp] theorem State.setX_p (s : State) (v : Byte) : (s.setX v).p = s.p := rfl
@[simp] theorem State.setX_cpuRun (s : State) (v : Byte) : (s.setX v).cpuRun = s.cpuRun := rfl
@[simp] theorem State.setX_ctx (s : State) (v : Byte) : (s.setX v).ctx = s.ctx := rfl
@[simp] theorem State.setX_ram (s : State) (v : Byte) : (s.setX v).ram = s.ram := rfl
@[simp] theorem State.setX_prg (s : State) (v : Byte) : (s.setX v).prg = s.prg := rfl
@[simp] theorem State.setX_prgSize (s : State) (v : Byte) : (s.setX v).prgSize = s.prgSize := rfl
@[simp] theorem State.setX_busCycles (s : State) (v : Byte) : (s.setX v).busCycles = s.busCycles := rfl
@[simp] theorem State.setX_ppu (s : State) (v : Byte) : (s.setX v).ppu = s.ppu := rfl
@[simp] theorem State.setX_params (s : State) (v : Byte) : (s.setX v).params = s.params := rfl
@[simp] theorem State.setX_input (s : State) (v : Byte) : (s.setX v).input = s.input := rfl
@[simp] theorem State.setX_handler (s : State) (v : Byte) : (s.setX v).handler = s.handler := rfl
@[simp] theorem State.setX_inputWrites (s : State) (v : Byte) : (s.setX v).inputWrites = s.inputWrites := rfl
@[simp] theorem State.setX_frameEvents (s : State) (v : Byte) : (s.setX v).frameEvents = s.frameEvents := rfl
@[simp] theorem State.setX_draws (s : State) (v : Byte) : (s.setX v).draws = s.draws := rfl

@[simp] theorem State.setY_a (s : State) (v : Byte) : (s.setY v).a = s.a := rfl
@[simp] theorem State.setY_x (s : State) (v : Byte) : (s.setY v).x = s.x := rfl
@[simp] theorem State.setY_y (s : State) (v : Byte) : (s.setY v).y = v := rfl
@[simp] theorem State.setY_sp (s : State) (v : Byte) : (s.setY v).sp = s.sp := rfl
@[simp] theorem State.setY_pc (s : State) (v : Byte) : (s.setY v).pc = s.pc := rfl
@[simp] theorem State.setY_p (s : State) (v : Byte) : (s.setY v).p = s.p := rfl
@[simp] theorem State.setY_cpuRun (s : State) (v : Byte) : (s.setY v).cpuRun = s.cpuRun := rfl
@[simp] theorem State.setY_ctx (s : State) (v : Byte) : (s.setY v).ctx = s.ctx := rfl
@[simp] theorem State.setY_ram (s : State) (v : Byte) : (s.setY v).ram = s.ram := rfl
@[simp] theorem State.setY_prg (s : State) (v : Byte) : (s.setY v).prg = s.prg := rfl
@[simp] theorem State.setY_prgSize (s : State) (v : Byte) : (s.setY v).prgSize = s.prgSize := rfl
@[simp] theorem State.setY_busCycles (s : State) (v : Byte) : (s.setY v).busCycles = s.busCycles := rfl
@[simp] theorem State.setY_ppu (s : State) (v : Byte) : (s.setY v).ppu = s.ppu := rfl
@[simp] theorem State.setY_params (s : State) (v : Byte) : (s.setY v).params = s.params := rfl
@[simp] theorem State.setY_input (s : State) (v : Byte) : (s.setY v).input = s.input := rfl
@[simp] theorem State.setY_handler (s : State) (v : Byte) : (s.setY v).handler = s.handler := rfl
@[simp] theorem State.setY_inputWrites (s : State) (v : Byte) : (s.setY v).inputWrites = s.inputWrites := rfl
@[simp] theorem State.setY_frameEvents (s : State) (v : Byte) : (s.setY v).frameEvents = s.frameEvents := rfl
@[simp] theorem State.setY_draws (s : State) (v : Byte) : (s.setY v).draws = s.draws := rfl

@[simp] theorem State.setSP_a (s : State) (v : Byte) : (s.setSP v).a = s.a := rfl
@[simp] theorem State.setSP_x (s : State) (v : Byte) : (s.setSP v).x = s.x := rfl
@[simp] theorem State.setSP_y (s : State) (v : Byte) : (s.setSP v).y = s.y := rfl
@[simp] theorem State.setSP_sp (s : State) (v : Byte) : (s.setSP v).sp = v := rfl
@[simp] theorem State.setSP_pc (s : State) (v : Byte) : (s.setSP v).pc = s.pc := rfl
@[simp] theorem State.setSP_p (s : State) (v : Byte) : (s.setSP v).p = s.p := rfl
@[simp] theorem State.setSP_cpuRun (s : State) (v : Byte) : (s.setSP v).cpuRun = s.cpuRun := rfl
@[simp] theorem State.setSP_ctx (s : State) (v : Byte) : (s.setSP v).ctx = s.ctx := rfl
@[simp] theorem State.setSP_ram (s : State) (v : Byte) : (s.setSP v).ram = s.ram := rfl
@[simp] theorem State.setSP_prg (s : State) (v : Byte) : (s.setSP v).prg = s.prg := rfl
@[simp] theorem State.setSP_prgSize (s : State) (v : Byte) : (s.setSP v).prgSize = s.prgSize := rfl
@[simp] theorem State.setSP_busCycles (s : State) (v : Byte) : (s.setSP v).busCycles = s.busCycles := rfl
@[simp] theorem State.setSP_ppu (s : State) (v : Byte) : (s.setSP v).ppu = s.ppu := rfl
@[simp] theorem State.setSP_params (s : State) (v : Byte) : (s.setSP v).params = s.params := rfl
@[simp] theorem State.setSP_input (s : State) (v : Byte) : (s.setSP v).input = s.input := rfl
@[simp] theorem State.setSP_handler (s : State) (v : Byte) : (s.setSP v).handler = s.handler := rfl
@[simp] theorem State.setSP_inputWrites (s : State) (v : Byte) : (s.setSP v).inputWrites = s.inputWrites := rfl
@[simp] theorem State.setSP_frameEvents (s : State) (v : Byte) : (s.setSP v).frameEvents = s.frameEvents := rfl
@[simp] theorem State.setSP_draws (s : State) (v : Byte) : (s.setSP v).draws = s.draws := rfl

@[simp] theorem State.setPC_a (s : State) (w : Word) : (s.setPC w).a = s.a := rfl
@[simp] theorem State.setPC_x (s : State) (w : Word) : (s.setPC w).x = s.x := rfl
@[simp] theorem State.setPC_y (s : State) (w : Word) : (s.setPC w).y = s.y := rfl
@[simp] theorem State.setPC_sp (s : State) (w : Word) : (s.setPC w).sp = s.sp := rfl
@[simp] theorem State.setPC_pc (s : State) (w : Word) : (s.setPC w).pc = w := rfl
@[simp] theorem State.setPC_p (s : State) (w : Word) : (s.setPC w).p = s.p := rfl
@[simp] theorem State.setPC_cpuRun (s : State) (w : Word) : (s.setPC w).cpuRun = s.cpuRun := rfl
@[simp] theorem State.setPC_ctx (s : State) (w : Word) : (s.setPC w).ctx = s.ctx := rfl
@[simp] theorem State.setPC_ram (s : State) (w : Word) : (s.setPC w).ram = s.ram := rfl
@[simp] theorem State.setPC_prg (s : State) (w : Word) : (s.setPC w).prg = s.prg := rfl
@[simp] theorem State.setPC_prgSize (s : State) (w : Word) : (s.setPC w).prgSize = s.prgSize := rfl
@[simp] theorem State.setPC_busCycles (s : State) (w : Word) : (s.setPC w).busCycles = s.busCycles := rfl
@[simp] theorem State.setPC_ppu (s : State) (w : Word) : (s.setPC w).ppu = s.ppu := rfl
@[simp] theorem State.setPC_params (s : State) (w : Word) : (s.setPC w).params = s.params := rfl
@[simp] theorem State.setPC_input (s : State) (w : Word) : (s.setPC w).input = s.input := rfl
@[simp] theorem State.setPC_handler (s : State) (w : Word) : (s.setPC w).handler = s.handler := rfl
@[simp] theorem State.setPC_inputWrites (s : State) (w : Word) : (s.setPC w).inputWrites = s.inputWrites := rfl
@[simp] theorem State.setPC_frameEvents (s : State) (w : Word) : (s.setPC w).frameEvents = s.frameEvents := rfl
@[simp] theorem State.setPC_draws (s : State) (w : Word) : (s.setPC w).draws = s.draws := rfl

@[simp] theorem State.setP_a (s : State) (f : Flags) : (s.setP f).a = s.a := rfl
@[simp] theorem State.setP_x (s : State) (f : Flags) : (s.setP f).x = s.x := rfl
@[simp] theorem State.setP_y (s : State) (f : Flags) : (s.setP f).y = s.y := rfl
@[simp] theorem State.setP_sp (s : State) (f : Flags) : (s.setP f).sp = s.sp := rfl
@[simp] theorem State.setP_pc (s : State) (f : Flags) : (s.setP f).pc = s.pc := rfl
@[simp] theorem State.setP_p (s : State) (f : Flags) : (s.setP f).p = f := rfl
@[simp] theorem State.setP_cpuRun (s : State) (f : Flags) : (s.setP f).cpuRun = s.cpuRun := rfl
@[simp] theorem State.setP_ctx (s : State) (f : Flags) : (s.setP f).ctx = s.ctx := rfl
@[simp] theorem State.setP_ram (s : State) (f : Flags) : (s.setP f).ram = s.ram := rfl
@[simp] theorem State.setP_prg (s : State) (f : Flags) : (s.setP f).prg = s.prg := rfl
@[simp] theorem State.setP_prgSize (s : State) (f : Flags) : (s.setP f).prgSize = s.prgSize := rfl
@[simp] theorem State.setP_busCycles (s : State) (f : Flags) : (s.setP f).busCycles = s.busCycles := rfl
@[simp] theorem State.setP_ppu (s : State) (f : Flags) : (s.setP f).ppu = s.ppu := rfl
@[simp] theorem State.setP_params (s : State) (f : Flags) : (s.setP f).params = s.params := rfl
@[simp] theorem State.setP_input (s : State) (f : Flags) : (s.setP f).input = s.input := rfl
@[simp] theorem State.setP_handler (s : State) (f : Flags) : (s.setP f).handler = s.handler := rfl
@[simp] theorem State.setP_inputWrites (s : State) (f : Flags) : (s.setP f).inputWrites = s.inputWrites := rfl
@[simp] theorem State.setP_frameEvents (s : State) (f : Flags) : (s.setP f).frameEvents = s.frameEvents := rfl
@[simp] theorem State.setP_draws (s : State) (f : Flags) : (s.setP f).draws = s.draws := rfl

@[simp] theorem State.setNZ_a (s : State) (v : Byte) : (s.setNZ v).a = s.a := rfl
@[simp] theorem State.setNZ_x (s : State) (v : Byte) : (s.setNZ v).x = s.x := rfl
@[simp] theorem State.setNZ_y (s : State) (v : Byte) : (s.setNZ v).y = s.y := rfl
@[simp] theorem State.setNZ_sp (s : State) (v : Byte) : (s.setNZ v).sp = s.sp := rfl
@[simp] theorem State.setNZ_pc (s : State) (v : Byte) : (s.setNZ v).pc = s.pc := rfl
@[simp] theorem State.setNZ_p (s : State) (v : Byte) : (s.setNZ v).p = s.p.setNZ v := rfl
@[simp] theorem State.setNZ_cpuRun (s : State) (v : Byte) : (s.setNZ v).cpuRun = s.cpuRun := rfl
@[simp] theorem State.setNZ_ctx (s : State) (v : Byte) : (s.setNZ v).ctx = s.ctx := rfl
@[simp] theorem State.setNZ_ram (s : State) (v : Byte) : (s.setNZ v).ram = s.ram := rfl
@[simp] theorem State.setNZ_prg (s : State) (v : Byte) : (s.setNZ v).prg = s.prg := rfl
@[simp] theorem State.setNZ_prgSize (s : State) (v : Byte) : (s.setNZ v).prgSize = s.prgSize := rfl
@[simp] theorem State.setNZ_busCycles (s : State) (v : Byte) : (s.setNZ v).busCycles = s.busCycles := rfl
@[simp] theorem State.setNZ_ppu (s : State) (v : Byte) : (s.setNZ v).ppu = s.ppu := rfl
@[simp] theorem State.setNZ_params (s : State) (v : Byte) : (s.setNZ v).params = s.params := rfl
@[simp] theorem State.setNZ_input (s : State) (v : Byte) : (s.setNZ v).input = s.input := rfl
@[simp] theorem State.setNZ_handler (s : State) (v : Byte) : (s.setNZ v).handler = s.handler := rfl
@[simp] theorem State.setNZ_inputWrites (s : State) (v : Byte) : (s.setNZ v).inputWrites = s.inputWrites := rfl
@[simp] theorem State.setNZ_frameEvents (s : State) (v : Byte) : (s.setNZ v).frameEvents = s.frameEvents := rfl
@[simp] theorem State.setNZ_draws (s : State) (v : Byte) : (s.setNZ v).draws = s.draws := rfl

@[simp] theorem State.setRun_a (s : State) (r : RunState) : (s.setRun r).a = s.a := rfl
@[simp] theorem State.setRun_x (s : State) (r : RunState) : (s.setRun r).x = s.x := rfl
@[simp] theorem State.setRun_y (s : State) (r : RunState) : (s.setRun r).y = s.y := rfl
@[simp] theorem State.setRun_sp (s : State) (r : RunState) : (s.setRun r).sp = s.sp := rfl
@[simp] theorem State.setRun_pc (s : State) (r : RunState) : (s.setRun r).pc = s.pc := rfl
@[simp] theorem State.setRun_p (s : State) (r : RunState) : (s.setRun r).p = s.p := rfl
@[simp] theorem State.setRun_cpuRun (s : State) (r : RunState) : (s.setRun r).cpuRun = r := rfl
@[simp] theorem State.setRun_ctx (s : State) (r : RunState) : (s.setRun r).ctx = s.ctx := rfl
@[simp] theorem State.setRun_ram (s : State) (r : RunState) : (s.setRun r).ram = s.ram := rfl
@[simp] theorem State.setRun_prg (s : State) (r : RunState) : (s.setRun r).prg = s.prg := rfl
@[simp] theorem State.setRun_prgSize (s : State) (r : RunState) : (s.setRun r).prgSize = s.prgSize := rfl
@[simp] theorem State.setRun_busCycles (s : State) (r : RunState) : (s.setRun r).busCycles = s.busCycles := rfl
@[simp] theorem State.setRun_ppu (s : State) (r : RunState) : (s.setRun r).ppu = s.ppu := rfl
@[simp] theorem State.setRun_params (s : State) (r : RunState) : (s.setRun r).params = s.params := rfl
@[simp] theorem State.setRun_input (s : State) (r : RunState) : (s.setRun r).input = s.input := rfl
@[simp] theorem State.setRun_handler (s : State) (r : RunState) : (s.setRun r).handler = s.handler := rfl
@[simp] theorem State.setRun_inputWrites (s : State) (r : RunState) : (s.setRun r).inputWrites = s.inputWrites := rfl
@[simp] theorem State.setRun_frameEvents (s : State) (r : RunState) : (s.setRun r).frameEvents = s.frameEvents := rfl
@[simp] theorem State.setRun_draws (s : State) (r : RunState) : (s.setRun r).draws = s.draws := rfl

@[simp] theorem State.setRam_a (s : State) (m : Memory) : (s.setRam m).a = s.a := rfl
@[simp] theorem State.setRam_x (s : State) (m : Memory) : (s.setRam m).x = s.x := rfl
@[simp] theorem State.setRam_y (s : State) (m : Memory) : (s.setRam m).y = s.y := rfl
@[simp] theorem State.setRam_sp (s : State) (m : Memory) : (s.setRam m).sp = s.sp := rfl
@[simp] theorem State.setRam_pc (s : State) (m : Memory) : (s.setRam m).pc = s.pc := rfl
@[simp] theorem State.setRam_p (s : State) (m : Memory) : (s.setRam m).p = s.p := rfl
@[simp] theorem State.setRam_cpuRun (s : State) (m : Memory) : (s.setRam m).cpuRun = s.cpuRun := rfl
@[simp] theorem State.setRam_ctx (s : State) (m : Memory) : (s.setRam m).ctx = s.ctx := rfl
@[simp] theorem State.setRam_ram (s : State) (m : Memory) : (s.setRam m).ram = m := rfl
@[simp] theorem State.setRam_prg (s : State) (m : Memory) : (s.setRam m).prg = s.prg := rfl
@[simp] theorem State.setRam_prgSize (s : State) (m : Memory) : (s.setRam m).prgSize = s.prgSize := rfl
@[simp] theorem State.setRam_busCycles (s : State) (m : Memory) : (s.setRam m).busCycles = s.busCycles := rfl
@[simp] theorem State.setRam_ppu (s : State) (m : Memory) : (s.setRam m).ppu = s.ppu := rfl
@[simp] theorem State.setRam_params (s : State) (m : Memory) : (s.setRam m).params = s.params := rfl
@[simp] theorem State.setRam_input (s : State) (m : Memory) : (s.setRam m).input = s.input := rfl
@[simp] theorem State.setRam_handler (s : State) (m : Memory) : (s.setRam m).handler = s.handler := rfl
@[simp] theorem State.setRam_inputWrites (s : State) (m : Memory) : (s.setRam m).inputWrites = s.inputWrites := rfl
@[simp] theorem State.setRam_frameEvents (s : State) (m : Memory) : (s.setRam m).frameEvents = s.frameEvents := rfl
@[simp] theorem State.setRam_draws (s : State) (m : Memory) : (s.setRam m).draws = s.draws := rfl

@[simp] theorem State.setPpu_a (s : State) (q : Ppu) : (s.setPpu q).a = s.a := rfl
@[simp] theorem State.setPpu_x (s : State) (q : Ppu) : (s.setPpu q).x = s.x := rfl
@[simp] theorem State.setPpu_y (s : State) (q : Ppu) : (s.setPpu q).y = s.y := rfl
@[simp] theorem State.setPpu_sp (s : State) (q : Ppu) : (s.setPpu q).sp = s.sp := rfl
@[simp] theorem State.setPpu_pc (s : State) (q : Ppu) : (s.setPpu q).pc = s.pc := rfl
@[simp] theorem State.setPpu_p (s : State) (q : Ppu) : (s.setPpu q).p = s.p := rfl
@[simp] theorem State.setPpu_cpuRun (s : State) (q : Ppu) : (s.setPpu q).cpuRun = s.cpuRun := rfl
@[simp] theorem State.setPpu_ctx (s : State) (q : Ppu) : (s.setPpu q).ctx = s.ctx := rfl
@[simp] theorem State.setPpu_ram (s : State) (q : Ppu) : (s.setPpu q).ram = s.ram := rfl
@[simp] theorem State.setPpu_prg (s : State) (q : Ppu) : (s.setPpu q).prg = s.prg := rfl
@[simp] theorem State.setPpu_prgSize (s : State) (q : Ppu) : (s.setPpu q).prgSize = s.prgSize := rfl
@[simp] theorem State.setPpu_busCycles (s : State) (q : Ppu) : (s.setPpu q).busCycles = s.busCycles := rfl
@[simp] theorem State.setPpu_ppu (s : State) (q : Ppu) : (s.setPpu q).ppu = q := rfl
@[simp] theorem State.setPpu_params (s : State) (q : Ppu) : (s.setPpu q).params = s.params := rfl
@[simp] theorem State.setPpu_input (s : State) (q : Ppu) : (s.setPpu q).input = s.input := rfl
@[simp] theorem State.setPpu_handler (s : State) (q : Ppu) : (s.setPpu q).handler = s.handler := rfl
@[simp] theorem State.setPpu_inputWrites (s : State) (q : Ppu) : (s.setPpu q).inputWrites = s.inputWrites := rfl
@[simp] theorem State.setPpu_frameEvents (s : State) (q : Ppu) : (s.setPpu q).frameEvents = s.frameEvents := rfl
@[simp] theorem State.setPpu_draws (s : State) (q : Ppu) : (s.setPpu q).draws = s.draws := rfl

@[simp] theorem State.setCtx_a (s : State) (c : StepCtx) : (s.setCtx c).a = s.a := rfl
@[simp] theorem State.setCtx_x (s : State) (c : StepCtx) : (s.setCtx c).x = s.x := rfl
@[simp] theorem State.setCtx_y (s : State) (c : StepCtx) : (s.setCtx c).y = s.y := rfl
@[simp] theorem State.setCtx_sp (s : State) (c : StepCtx) : (s.setCtx c).sp = s.sp := rfl
@[simp] theorem State.setCtx_pc (s : State) (c : StepCtx) : (s.setCtx c).pc = s.pc := rfl
@[simp] theorem State.setCtx_p (s : State) (c : StepCtx) : (s.setCtx c).p = s.p := rfl
@[simp] theorem State.setCtx_cpuRun (s : State) (c : StepCtx) : (s.setCtx c).cpuRun = s.cpuRun := rfl
@[simp] theorem State.setCtx_ctx (s : State) (c : StepCtx) : (s.setCtx c).ctx = c := rfl
@[simp] theorem State.setCtx_ram (s : State) (c : StepCtx) : (s.setCtx c).ram = s.ram := rfl
@[simp] theorem State.setCtx_prg (s : State) (c : StepCtx) : (s.setCtx c).prg = s.prg := rfl
@[simp] theorem State.setCtx_prgSize (s : State) (c : StepCtx) : (s.setCtx c).prgSize = s.prgSize := rfl
@[simp] theorem State.setCtx_busCycles (s : State) (c : StepCtx) : (s.setCtx c).busCycles = s.busCycles := rfl
@[simp] theorem State.setCtx_ppu (s : State) (c : StepCtx) : (s.setCtx c).ppu = s.ppu := rfl
@[simp] theorem State.setCtx_params (s : State) (c : StepCtx) : (s.setCtx c).params = s.params := rfl
@[simp] theorem State.setCtx_input (s : State) (c : StepCtx) : (s.setCtx c).input = s.input := rfl
@[simp] theorem State.setCtx_handler (s : State) (c : StepCtx) : (s.setCtx c).handler = s.handler := rfl
@[simp] theorem State.setCtx_inputWrites (s : State) (c : StepCtx) : (s.setCtx c).inputWrites = s.inputWrites := rfl
@[simp] theorem State.setCtx_frameEvents (s : State) (c : StepCtx) : (s.setCtx c).frameEvents = s.frameEvents := rfl
@[simp] theorem State.setCtx_draws (s : State) (c : StepCtx) : (s.setCtx c).draws = s.draws := rfl

@[simp] theorem State.tick_a (s : State) (n : Nat) : (s.tick n).a = s.a := rfl
@[simp] theorem State.tick_x (s : State) (n : Nat) : (s.tick n).x = s.x := rfl
@[simp] theorem State.tick_y (s : State) (n : Nat) : (s.tick n).y = s.y := rfl
@[simp] theorem State.tick_sp (s : State) (n : Nat) : (s.tick n).sp = s.sp := rfl
@[simp] theorem State.tick_pc (s : State) (n : Nat) : (s.tick n).pc = s.pc := rfl
@[simp] theorem State.tick_p (s : State) (n : Nat) : (s.tick n).p = s.p := rfl
@[simp] theorem State.tick_cpuRun (s : State) (n : Nat) : (s.tick n).cpuRun = s.cpuRun := rfl
@[simp] theorem State.tick_ctx (s : State) (n : Nat) : (s.tick n).ctx = { s.ctx with cyc := s.ctx.cyc + n } := rfl
@[simp] theorem State.tick_ram (s : State) (n : Nat) : (s.tick n).ram = s.ram := rfl
@[simp] theorem State.tick_prg (s : State) (n : Nat) : (s.tick n).prg = s.prg := rfl
@[simp] theorem State.tick_prgSize (s : State) (n : Nat) : (s.tick n).prgSize = s.prgSize := rfl
@[simp] theorem State.tick_busCycles (s : State) (n : Nat) : (s.tick n).busCycles = s.busCycles := rfl
@[simp] theorem State.tick_ppu (s : State) (n : Nat) : (s.tick n).ppu = s.ppu := rfl
@[simp] theorem State.tick_params (s : State) (n : Nat) : (s.tick n).params = s.params := rfl
@[simp] theorem State.tick_input (s : State) (n : Nat) : (s.tick n).input = s.input := rfl
@[simp] theorem State.tick_handler (s : State) (n : Nat) : (s.tick n).handler = s.handler := rfl
@[simp] theorem State.tick_inputWrites (s : State) (n : Nat) : (s.tick n).inputWrites = s.inputWrites := rfl
@[simp] theorem State.tick_frameEvents (s : State) (n : Nat) : (s.tick n).frameEvents = s.frameEvents := rfl
@[simp] theorem State.tick_draws (s : State) (n : Nat) : (s.tick n).draws = s.draws := rfl

@[simp] theorem State.draw_a (s : State) : s.draw.a = s.a := rfl
@[simp] theorem State.draw_x (s : State) : s.draw.x = s.x := rfl
@[simp] theorem State.draw_y (s : State) : s.draw.y = s.y := rfl
@[simp] theorem State.draw_sp (s : State) : s.draw.sp = s.sp := rfl
@[simp] theorem State.draw_pc (s : State) : s.draw.pc = s.pc := rfl
@[simp] theorem State.draw_p (s : State) : s.draw.p = s.p := rfl
@[simp] theorem State.draw_cpuRun (s : State) : s.draw.cpuRun = s.cpuRun := rfl
@[simp] theorem State.draw_ctx (s : State) : s.draw.ctx = s.ctx := rfl
@[simp] theorem State.draw_ram (s : State) : s.draw.ram = s.ram := rfl
@[simp] theorem State.draw_prg (s : State) : s.draw.prg = s.prg := rfl
@[simp] theorem State.draw_prgSize (s : State) : s.draw.prgSize = s.prgSize := rfl
@[simp] theorem State.draw_busCycles (s : State) : s.draw.busCycles = s.busCycles := rfl
@[simp] theorem State.draw_ppu (s : State) : s.draw.ppu = s.ppu := rfl
@[simp] theorem State.draw_params (s : State) : s.draw.params = s.params := rfl
@[simp] theorem State.draw_input (s : State) : s.draw.input = s.input := rfl
@[simp] theorem State.draw_handler (s : State) : s.draw.handler = s.handler := rfl
@[simp] theorem State.draw_inputWrites (s : State) : s.draw.inputWrites = s.inputWrites := rfl
@[simp] theorem State.draw_frameEvents (s : State) : s.draw.frameEvents = s.frameEvents := rfl
@[simp] theorem State.draw_draws (s : State) : s.draw.draws = s.draws + 1 := rfl

@[simp] theorem State.inputWrite_a (s : State) (v : Byte) : (s.inputWrite v).a = s.a := rfl
@[simp] theorem State.inputWrite_x (s : State) (v : Byte) : (s.inputWrite v).x = s.x := rfl
@[simp] theorem State.inputWrite_y (s : State) (v : Byte) : (s.inputWrite v).y = s.y := rfl
@[simp] theorem State.inputWrite_sp (s : State) (v : Byte) : (s.inputWrite v).sp = s.sp := rfl
@[simp] theorem State.inputWrite_pc (s : State) (v : Byte) : (s.inputWrite v).pc = s.pc := rfl
@[simp] theorem State.inputWrite_p (s : State) (v : Byte) : (s.inputWrite v).p = s.p := rfl
@[simp] theorem State.inputWrite_cpuRun (s : State) (v : Byte) : (s.inputWrite v).cpuRun = s.cpuRun := rfl
@[simp] theorem State.inputWrite_ctx (s : State) (v : Byte) : (s.inputWrite v).ctx = s.ctx := rfl
@[simp] theorem State.inputWrite_ram (s : State) (v : Byte) : (s.inputWrite v).ram = s.ram := rfl
@[simp] theorem State.inputWrite_prg (s : State) (v : Byte) : (s.inputWrite v).prg = s.prg := rfl
@[simp] theorem State.inputWrite_prgSize (s : State) (v : Byte) : (s.inputWrite v).prgSize = s.prgSize := rfl
@[simp] theorem State.inputWrite_busCycles (s : State) (v : Byte) : (s.inputWrite v).busCycles = s.busCycles := rfl
@[simp] theorem State.inputWrite_ppu (s : State) (v : Byte) : (s.inputWrite v).ppu = s.ppu := rfl
@[simp] theorem State.inputWrite_params (s : State) (v : Byte) : (s.inputWrite v).params = s.params := rfl
@[simp] theorem State.inputWrite_input (s : State) (v : Byte) : (s.inputWrite v).input = Config.inputAfterWrite s.input v := rfl
@[simp] theorem State.inputWrite_handler (s : State) (v : Byte) : (s.inputWrite v).handler = s.handler := rfl
@[simp] theorem State.inputWrite_inputWrites (s : State) (v : Byte) : (s.inputWrite v).inputWrites = v :: s.inputWrites := rfl
@[simp] theorem State.inputWrite_frameEvents (s : State) (v : Byte) : (s.inputWrite v).frameEvents = s.frameEvents := rfl
@[simp] theorem State.inputWrite_draws (s : State) (v : Byte) : (s.inputWrite v).draws = s.draws := rfl

@[simp] theorem State.frameEventOnRise_a (s : State) (before : Bool) : (s.frameEventOnRise before).a = s.a := rfl
@[simp] theorem State.frameEventOnRise_x (s : State) (before : Bool) : (s.frameEventOnRise before).x = s.x := rfl
@[simp] theorem State.frameEventOnRise_y (s : State) (before : Bool) : (s.frameEventOnRise before).y = s.y := rfl
@[simp] theorem State.frameEventOnRise_sp (s : State) (before : Bool) : (s.frameEventOnRise before).sp = s.sp := rfl
@[simp] theorem State.frameEventOnRise_pc (s : State) (before : Bool) : (s.frameEventOnRise before).pc = s.pc := rfl
@[simp] theorem State.frameEventOnRise_p (s : State) (before : Bool) : (s.frameEventOnRise before).p = s.p := rfl
@[simp] theorem State.frameEventOnRise_cpuRun (s : State) (before : Bool) : (s.frameEventOnRise before).cpuRun = s.cpuRun := rfl
@[simp] theorem State.frameEventOnRise_ctx (s : State) (before : Bool) : (s.frameEventOnRise before).ctx = s.ctx := rfl
@[simp] theorem State.frameEventOnRise_ram (s : State) (before : Bool) : (s.frameEventOnRise before).ram = s.ram := rfl
@[simp] theorem State.frameEventOnRise_prg (s : State) (before : Bool) : (s.frameEventOnRise before).prg = s.prg := rfl
@[simp] theorem State.frameEventOnRise_prgSize (s : State) (before : Bool) : (s.frameEventOnRise before).prgSize = s.prgSize := rfl
@[simp] theorem State.frameEventOnRise_busCycles (s : State) (before : Bool) : (s.frameEventOnRise before).busCycles = s.busCycles := rfl
@[simp] theorem State.frameEventOnRise_ppu (s : State) (before : Bool) : (s.frameEventOnRise before).ppu = s.ppu := rfl
@[simp] theorem State.frameEventOnRise_params (s : State) (before : Bool) : (s.frameEventOnRise before).params = s.params := rfl
@[simp] theorem State.frameEventOnRise_input (s : State) (before : Bool) : (s.frameEventOnRise before).input =
    if !before && s.ppu.nmiPending then Config.onFrame s.handler s.frameEvents s.ppu s.input else s.input := rfl
@[simp] theorem State.frameEventOnRise_handler (s : State) (before : Bool) : (s.frameEventOnRise before).handler = s.handler := rfl
@[simp] theorem State.frameEventOnRise_inputWrites (s : State) (before : Bool) : (s.frameEventOnRise before).inputWrites = s.inputWrites := rfl
@[simp] theorem State.frameEventOnRise_frameEvents (s : State) (before : Bool) : (s.frameEventOnRise before).frameEvents =
    if !before && s.ppu.nmiPending then s.frameEvents + 1 else s.frameEvents := rfl
@[simp] theorem State.frameEventOnRise_draws (s : State) (before : Bool) : (s.frameEventOnRise before).draws = s.draws := rfl

@[simp] theorem State.push_a (s : State) (v : Byte) : (s.push v).a = s.a := rfl
@[simp] theorem State.push_x (s : State) (v : Byte) : (s.push v).x = s.x := rfl
@[simp] theorem State.push_y (s : State) (v : Byte) : (s.push v).y = s.y := rfl
@[simp] theorem State.push_sp (s : State) (v : Byte) : (s.push v).sp = s.sp - 1 := rfl
@[simp] theorem State.push_pc (s : State) (v : Byte) : (s.push v).pc = s.pc := rfl
@[simp] theorem State.push_p (s : State) (v : Byte) : (s.push v).p = s.p := rfl
@[simp] theorem State.push_cpuRun (s : State) (v : Byte) : (s.push v).cpuRun = s.cpuRun := rfl
@[simp] theorem State.push_ctx (s : State) (v : Byte) : (s.push v).ctx = s.ctx := rfl
@[simp] theorem State.push_ram (s : State) (v : Byte) : (s.push v).ram = s.ram.write (stackIndex s.sp) v := rfl
@[simp] theorem State.push_prg (s : State) (v : Byte) : (s.push v).prg = s.prg := rfl
@[simp] theorem State.push_prgSize (s : State) (v : Byte) : (s.push v).prgSize = s.prgSize := rfl
@[simp] theorem State.push_busCycles (s : State) (v : Byte) : (s.push v).busCycles = s.busCycles := rfl
@[simp] theorem State.push_ppu (s : State) (v : Byte) : (s.push v).ppu = s.ppu := rfl
@[simp] theorem State.push_params (s : State) (v : Byte) : (s.push v).params = s.params := rfl
@[simp] theorem State.push_input (s : State) (v : Byte) : (s.push v).input = s.input := rfl
@[simp] theorem State.push_handler (s : State) (v : Byte) : (s.push v).handler = s.handler := rfl
@[simp] theorem State.push_inputWrites (s : State) (v : Byte) : (s.push v).inputWrites = s.inputWrites := rfl
@[simp] theorem State.push_frameEvents (s : State) (v : Byte) : (s.push v).frameEvents = s.frameEvents := rfl
@[simp] theorem State.push_draws (s : State) (v : Byte) : (s.push v).draws = s.draws := rfl

@[simp] theorem State.popped_a (s : State) : s.popped.a = s.a := rfl
@[simp] theorem State.popped_x (s : State) : s.popped.x = s.x := rfl
@[simp] theorem State.popped_y (s : State) : s.popped.y = s.y := rfl
@[simp] theorem State.popped_sp (s : State) : s.popped.sp = s.sp + 1 := rfl
@[simp] theorem State.popped_pc (s : State) : s.popped.pc = s.pc := rfl
@[simp] theorem State.popped_p (s : State) : s.popped.p = s.p := rfl
@[simp] theorem State.popped_cpuRun (s : State) : s.popped.cpuRun = s.cpuRun := rfl
@[simp] theorem State.popped_ctx (s : State) : s.popped.ctx = s.ctx := rfl
@[simp] theorem State.popped_ram (s : State) : s.popped.ram = s.ram := rfl
@[simp] theorem State.popped_prg (s : State) : s.popped.prg = s.prg := rfl
@[simp] theorem State.popped_prgSize (s : State) : s.popped.prgSize = s.prgSize := rfl
@[simp] theorem State.popped_busCycles (s : State) : s.popped.busCycles = s.busCycles := rfl
@[simp] theorem State.popped_ppu (s : State) : s.popped.ppu = s.ppu := rfl
@[simp] theorem State.popped_params (s : State) : s.popped.params = s.params := rfl
@[simp] theorem State.popped_input (s : State) : s.popped.input = s.input := rfl
@[simp] theorem State.popped_handler (s : State) : s.popped.handler = s.handler := rfl
@[simp] theorem State.popped_inputWrites (s : State) : s.popped.inputWrites = s.inputWrites := rfl
@[simp] theorem State.popped_frameEvents (s : State) : s.popped.frameEvents = s.frameEvents := rfl
@[simp] theorem State.popped_draws (s : State) : s.popped.draws = s.draws := rfl

@[simp] theorem busTick_a (n : Nat) (s : State) : (busTick n s).a = s.a := rfl
@[simp] theorem busTick_x (n : Nat) (s : State) : (busTick n s).x = s.x := rfl
@[simp] theorem busTick_y (n : Nat) (s : State) : (busTick n s).y = s.y := rfl
@[simp] theorem busTick_sp (n : Nat) (s : State) : (busTick n s).sp = s.sp := rfl
@[simp] theorem busTick_pc (n : Nat) (s : State) : (busTick n s).pc = s.pc := rfl
@[simp] theorem busTick_p (n : Nat) (s : State) : (busTick n s).p = s.p := rfl
@[simp] theorem busTick_cpuRun (n : Nat) (s : State) : (busTick n s).cpuRun = s.cpuRun := rfl
@[simp] theorem busTick_ctx (n : Nat) (s : State) : (busTick n s).ctx = s.ctx := rfl
@[simp] theorem busTick_ram (n : Nat) (s : State) : (busTick n s).ram = s.ram := rfl
@[simp] theorem busTick_prg (n : Nat) (s : State) : (busTick n s).prg = s.prg := rfl
@[simp] theorem busTick_prgSize (n : Nat) (s : State) : (busTick n s).prgSize = s.prgSize := rfl
@[simp] theorem busTick_busCycles (n : Nat) (s : State) : (busTick n s).busCycles = s.busCycles + n := rfl
@[simp] theorem busTick_ppu (n : Nat) (s : State) : (busTick n s).ppu = s.ppu.dots s.params (3 * n) := rfl
@[simp] theorem busTick_params (n : Nat) (s : State) : (busTick n s).params = s.params := rfl
@[simp] theorem busTick_input (n : Nat) (s : State) : (busTick n s).input =
    if !s.ppu.nmiPending && (s.ppu.dots s.params (3 * n)).nmiPending
    then Config.onFrame s.handler s.frameEvents (s.ppu.dots s.params (3 * n)) s.input else s.input := rfl
@[simp] theorem busTick_handler (n : Nat) (s : State) : (busTick n s).handler = s.handler := rfl
@[simp] theorem busTick_inputWrites (n : Nat) (s : State) : (busTick n s).inputWrites = s.inputWrites := rfl
@[simp] theorem busTick_frameEvents (n : Nat) (s : State) : (busTick n s).frameEvents =
    if !s.ppu.nmiPending && (s.ppu.dots s.params (3 * n)).nmiPending
    then s.frameEvents + 1 else s.frameEvents := rfl
@[simp] theorem busTick_draws (n : Nat) (s : State) : (busTick n s).draws = s.draws := rfl

@[simp] theorem Flags.setNZ_c (f : Flags) (w : Byte) : (f.setNZ w).c = f.c := rfl
@[simp] theorem Flags.setNZ_z (f : Flags) (w : Byte) : (f.setNZ w).z = (w == 0) := rfl
@[simp] theorem Flags.setNZ_i (f : Flags) (w : Byte) : (f.setNZ w).i = f.i := rfl
@[simp] theorem Flags.setNZ_d (f : Flags) (w : Byte) : (f.setNZ w).d = f.d := rfl
@[simp] theorem Flags.setNZ_b (f : Flags) (w : Byte) : (f.setNZ w).b = f.b := rfl
@[simp] theorem Flags.setNZ_u (f : Flags) (w : Byte) : (f.setNZ w).u = f.u := rfl
@[simp] theorem Flags.setNZ_v (f : Flags) (w : Byte) : (f.setNZ w).v = f.v := rfl
@[simp] theorem Flags.setNZ_n (f : Flags) (w : Byte) : (f.setNZ w).n = w.getLsbD 7 := rfl

@[simp] theorem Flags.setC_c (f : Flags) (w : Bool) : (f.setC w).c = w := rfl
@[simp] theorem Flags.setC_z (f : Flags) (w : Bool) : (f.setC w).z = f.z := rfl
@[simp] theorem Flags.setC_i (f : Flags) (w : Bool) : (f.setC w).i = f.i := rfl
@[simp] theorem Flags.setC_d (f : Flags) (w : Bool) : (f.setC w).d = f.d := rfl
@[simp] theorem Flags.setC_b (f : Flags) (w : Bool) : (f.setC w).b = f.b := rfl
@[simp] theorem Flags.setC_u (f : Flags) (w : Bool) : (f.setC w).u = f.u := rfl
@[simp] theorem Flags.setC_v (f : Flags) (w : Bool) : (f.setC w).v = f.v := rfl
@[simp] theorem Flags.setC_n (f : Flags) (w : Bool) : (f.setC w).n = f.n := rfl

@[simp] theorem Flags.setV_c (f : Flags) (w : Bool) : (f.setV w).c = f.c := rfl
@[simp] theorem Flags.setV_z (f : Flags) (w : Bool) : (f.setV w).z = f.z := rfl
@[simp] theorem Flags.setV_i (f : Flags) (w : Bool) : (f.setV w).i = f.i := rfl
@[simp] theorem Flags.setV_d (f : Flags) (w : Bool) : (f.setV w).d = f.d := rfl
@[simp] theorem Flags.setV_b (f : Flags) (w : Bool) : (f.setV w).b = f.b := rfl
@[simp] theorem Flags.setV_u (f : Flags) (w : Bool) : (f.setV w).u = f.u := rfl
@[simp] theorem Flags.setV_v (f : Flags) (w : Bool) : (f.setV w).v = w := rfl
@[simp] theorem Flags.setV_n (f : Flags) (w : Bool) : (f.setV w).n = f.n := rfl

@[simp] theorem Flags.bitTest_c (f : Flags) (a m : Byte) : (f.bitTest a m).c = f.c := rfl
@[simp] theorem Flags.bitTest_z (f : Flags) (a m : Byte) : (f.bitTest a m).z = (a &&& m == 0) := rfl
@[simp] theorem Flags.bitTest_i (f : Flags) (a m : Byte) : (f.bitTest a m).i = f.i := rfl
@[simp] theorem Flags.bitTest_d (f : Flags) (a m : Byte) : (f.bitTest a m).d = f.d := rfl
@[simp] theorem Flags.bitTest_b (f : Flags) (a m : Byte) : (f.bitTest a m).b = f.b := rfl
@[simp] theorem Flags.bitTest_u (f : Flags) (a m : Byte) : (f.bitTest a m).u = f.u := rfl
@[simp] theorem Flags.bitTest_v (f : Flags) (a m : Byte) : (f.bitTest a m).v = m.getLsbD 6 := rfl
@[simp] theorem Flags.bitTest_n (f : Flags) (a m : Byte) : (f.bitTest a m).n = m.getLsbD 7 := rfl

@[simp] theorem Flags.compare_c (f : Flags) (r m : Byte) : (f.compare r m).c = decide (m.toNat ≤ r.toNat) := rfl
@[simp] theorem Flags.compare_z (f : Flags) (r m : Byte) : (f.compare r m).z = (r - m == 0) := rfl
@[simp] theorem Flags.compare_i (f : Flags) (r m : Byte) : (f.compare r m).i = f.i := rfl
@[simp] theorem Flags.compare_d (f : Flags) (r m : Byte) : (f.compare r m).d = f.d := rfl
@[simp] theorem Flags.compare_b (f : Flags) (r m : Byte) : (f.compare r m).b = f.b := rfl
@[simp] theorem Flags.compare_u (f : Flags) (r m : Byte) : (f.compare r m).u = f.u := rfl
@[simp] theorem Flags.compare_v (f : Flags) (r m : Byte) : (f.compare r m).v = f.v := rfl
@[simp] theorem Flags.compare_n (f : Flags) (r m : Byte) : (f.compare r m).n = (r - m).getLsbD 7 := rfl

@[simp] theorem Flags.setArith_c (f : Flags) (r : Byte × Bool × Bool) : (f.setArith r).c = r.2.1 := rfl
@[simp] theorem Flags.setArith_z (f : Flags) (r : Byte × Bool × Bool) : (f.setArith r).z = (r.1 == 0) := rfl
@[simp] theorem Flags.setArith_i (f : Flags) (r : Byte × Bool × Bool) : (f.setArith r).i = f.i := rfl
@[simp] theorem Flags.setArith_d (f : Flags) (r : Byte × Bool × Bool) : (f.setArith r).d = f.d := rfl
@[simp] theorem Flags.setArith_b (f : Flags) (r : Byte × Bool × Bool) : (f.setArith r).b = f.b := rfl
@[simp] theorem Flags.setArith_u (f : Flags) (r : Byte × Bool × Bool) : (f.setArith r).u = f.u := rfl
@[simp] theorem Flags.setArith_v (f : Flags) (r : Byte × Bool × Bool) : (f.setArith r).v = r.2.2 := rfl
@[simp] theorem Flags.setArith_n (f : Flags) (r : Byte × Bool × Bool) : (f.setArith r).n = r.1.getLsbD 7 := rfl

@[simp] theorem Flags.setShift_c (f : Flags) (r : Byte × Bool) : (f.setShift r).c = r.2 := rfl
@[simp] theorem Flags.setShift_z (f : Flags) (r : Byte × Bool) : (f.setShift r).z = (r.1 == 0) := rfl
@[simp] theorem Flags.setShift_i (f : Flags) (r : Byte × Bool) : (f.setShift r).i = f.i := rfl
@[simp] theorem Flags.setShift_d (f : Flags) (r : Byte × Bool) : (f.setShift r).d = f.d := rfl
@[simp] theorem Flags.setShift_b (f : Flags) (r : Byte × Bool) : (f.setShift r).b = f.b := rfl
@[simp] theorem Flags.setShift_u (f : Flags) (r : Byte × Bool) : (f.setShift r).u = f.u := rfl
@[simp] theorem Flags.setShift_v (f : Flags) (r : Byte × Bool) : (f.setShift r).v = f.v := rfl
@[simp] theorem Flags.setShift_n (f : Flags) (r : Byte × Bool) : (f.setShift r).n = r.1.getLsbD 7 := rfl

@[simp] theorem Flags.setAnc_c (f : Flags) (r : Byte) : (f.setAnc r).c = r.getLsbD 7 := rfl
@[simp] theorem Flags.setAnc_z (f : Flags) (r : Byte) : (f.setAnc r).z = (r == 0) := rfl
@[simp] theorem Flags.setAnc_i (f : Flags) (r : Byte) : (f.setAnc r).i = f.i := rfl
@[simp] theorem Flags.setAnc_d (f : Flags) (r : Byte) : (f.setAnc r).d = f.d := rfl
@[simp] theorem Flags.setAnc_b (f : Flags) (r : Byte) : (f.setAnc r).b = f.b := rfl
@[simp] theorem Flags.setAnc_u (f : Flags) (r : Byte) : (f.setAnc r).u = f.u := rfl
@[simp] theorem Flags.setAnc_v (f : Flags) (r : Byte) : (f.setAnc r).v = f.v := rfl
@[simp] theorem Flags.setAnc_n (f : Flags) (r : Byte) : (f.setAnc r).n = r.getLsbD 7 := rfl

@[simp] theorem Flags.setArr_c (f : Flags) (r : Byte) : (f.setArr r).c = r.getLsbD 6 := rfl
@[simp] theorem Flags.setArr_z (f : Flags) (r : Byte) : (f.setArr r).z = (r == 0) := rfl
@[simp] theorem Flags.setArr_i (f : Flags) (r : Byte) : (f.setArr r).i = f.i := rfl
@[simp] theorem Flags.setArr_d (f : Flags) (r : Byte) : (f.setArr r).d = f.d := rfl
@[simp] theorem Flags.setArr_b (f : Flags) (r : Byte) : (f.setArr r).b = f.b := rfl
@[simp] theorem Flags.setArr_u (f : Flags) (r : Byte) : (f.setArr r).u = f.u := rfl
@[simp] theorem Flags.setArr_v (f : Flags) (r : Byte) : (f.setArr r).v = Bool.xor (r.getLsbD 6) (r.getLsbD 5) := rfl
@[simp] theorem Flags.setArr_n (f : Flags) (r : Byte) : (f.setArr r).n = r.getLsbD 7 := rfl

end Sys2Proof.Machine
end

