-- ==== Sys2Proof/Laws/Router.lean ====
section
/-! SUPPORT. What a CPU read, a CPU write and an OAM DMA can do, said once each. -/

namespace Sys2Proof.Machine

/-- The offset of a PPU register is write-only as `ReadOk` says. -/
theorem ppuRegAt_writeOnly (n : Nat) :
    (ppuRegAt n).writeOnly = true ↔ n % 8 = 0 ∨ n % 8 = 1 ∨ n % 8 = 3 ∨ n % 8 = 5 ∨ n % 8 = 6 := by
  have h : n % 8 < 8 := Nat.mod_lt _ (by omega)
  unfold ppuRegAt
  generalize n % 8 = m at h ⊢
  match m, h with
  | 0, _ | 1, _ | 2, _ | 3, _ | 4, _ | 5, _ | 6, _ | 7, _ => simp [PpuReg.writeOnly]

theorem raise_eq_faultAt (c : FaultCause) (s : State) : raise c s = faultAt c s := rfl

theorem readFault?_of_readOk {a : Word} {s : State} (h : ReadOk a s) : readFault? a s = none := by
  unfold readFault? region
  by_cases h1 : a.toNat < 0x2000
  · simp [h1]
  · by_cases h2 : a.toNat < 0x4000
    · simp only [h1, h2, if_true, if_false]
      rw [if_neg]
      intro hw
      simp only [Bool.and_eq_true, decide_eq_true_eq, ppuRegAt_writeOnly] at hw
      exact h ⟨by omega, h2, hw.1, hw.2⟩
    · simp only [h1, h2, if_false]
      split <;> (try split_ifs at *) <;> simp_all

theorem readFault?_of_not_readOk {a : Word} {s : State} (h : ¬ ReadOk a s) :
    readFault? a s = some (.ppuWriteOnlyRead a) := by
  simp only [ReadOk, not_not] at h
  obtain ⟨h1, h2, h3, h4⟩ := h
  unfold readFault? region
  simp only [show ¬ a.toNat < 0x2000 by omega, h2, if_true, if_false]
  rw [if_pos]
  simp only [Bool.and_eq_true, decide_eq_true_eq, ppuRegAt_writeOnly]
  exact ⟨h3, h4⟩

/-- A read that completes. -/
theorem memRead_ok {a : Word} {s : State} (h : ReadOk a s) : memRead a s = .ok (readByte a s, afterRead a s) := by
  simp [memRead, readFault?_of_readOk h]

/-- A read that faults. -/
theorem memRead_fault {a : Word} {s : State} (h : ¬ ReadOk a s) :
    memRead a s = .error (faultAt (.ppuWriteOnlyRead a) s) := by
  simp [memRead, readFault?_of_not_readOk h, raise_eq_faultAt]

/-- The states a read leads to: the same, with a register's read effect, or with one free value used. -/
theorem afterRead_cases (a : Word) (s : State) :
    afterRead a s = s ∨ afterRead a s = s.draw ∨ afterRead a s = s.setPpu s.ppu.afterStatusRead ∨
    afterRead a s = (s.setPpu s.ppu.afterStatusRead).draw ∨ afterRead a s = s.setPpu s.ppu.afterDataRead := by
  unfold afterRead
  split <;> (try split) <;> simp

/-! A read changes no register, no memory and no counter: one lemma per field. -/

theorem Ppu.afterDataRead_eq (p : Ppu) :
    p.afterDataRead = { p with v := p.v + p.increment, readBuf := if p.v.toNat ≤ 0x3EFF then p.read p.v else p.readBuf } := by
  unfold Ppu.afterDataRead Ppu.advanceV
  split <;> rfl

@[simp] theorem afterRead_a (a : Word) (s : State) : (afterRead a s).a = s.a := by
  rcases afterRead_cases a s with h | h | h | h | h <;> rw [h] <;> rfl

@[simp] theorem afterRead_x (a : Word) (s : State) : (afterRead a s).x = s.x := by
  rcases afterRead_cases a s with h | h | h | h | h <;> rw [h] <;> rfl

@[simp] theorem afterRead_y (a : Word) (s : State) : (afterRead a s).y = s.y := by
  rcases afterRead_cases a s with h | h | h | h | h <;> rw [h] <;> rfl

@[simp] theorem afterRead_sp (a : Word) (s : State) : (afterRead a s).sp = s.sp := by
  rcases afterRead_cases a s with h | h | h | h | h <;> rw [h] <;> rfl

@[simp] theorem afterRead_pc (a : Word) (s : State) : (afterRead a s).pc = s.pc := by
  rcases afterRead_cases a s with h | h | h | h | h <;> rw [h] <;> rfl

@[simp] theorem afterRead_p (a : Word) (s : State) : (afterRead a s).p = s.p := by
  rcases afterRead_cases a s with h | h | h | h | h <;> rw [h] <;> rfl

@[simp] theorem afterRead_cpuRun (a : Word) (s : State) : (afterRead a s).cpuRun = s.cpuRun := by
  rcases afterRead_cases a s with h | h | h | h | h <;> rw [h] <;> rfl

@[simp] theorem afterRead_ctx (a : Word) (s : State) : (afterRead a s).ctx = s.ctx := by
  rcases afterRead_cases a s with h | h | h | h | h <;> rw [h] <;> rfl

@[simp] theorem afterRead_ram (a : Word) (s : State) : (afterRead a s).ram = s.ram := by
  rcases afterRead_cases a s with h | h | h | h | h <;> rw [h] <;> rfl

@[simp] theorem afterRead_prg (a : Word) (s : State) : (afterRead a s).prg = s.prg := by
  rcases afterRead_cases a s with h | h | h | h | h <;> rw [h] <;> rfl

@[simp] theorem afterRead_prgSize (a : Word) (s : State) : (afterRead a s).prgSize = s.prgSize := by
  rcases afterRead_cases a s with h | h | h | h | h <;> rw [h] <;> rfl

@[simp] theorem afterRead_busCycles (a : Word) (s : State) : (afterRead a s).busCycles = s.busCycles := by
  rcases afterRead_cases a s with h | h | h | h | h <;> rw [h] <;> rfl

@[simp] theorem afterRead_params (a : Word) (s : State) : (afterRead a s).params = s.params := by
  rcases afterRead_cases a s with h | h | h | h | h <;> rw [h] <;> rfl

@[simp] theorem afterRead_inputWrites (a : Word) (s : State) : (afterRead a s).inputWrites = s.inputWrites := by
  rcases afterRead_cases a s with h | h | h | h | h <;> rw [h] <;> rfl

@[simp] theorem afterRead_input (a : Word) (s : State) : (afterRead a s).input = s.input := by
  rcases afterRead_cases a s with h | h | h | h | h <;> rw [h] <;> rfl

@[simp] theorem afterRead_handler (a : Word) (s : State) : (afterRead a s).handler = s.handler := by
  rcases afterRead_cases a s with h | h | h | h | h <;> rw [h] <;> rfl

@[simp] theorem afterRead_frameEvents (a : Word) (s : State) : (afterRead a s).frameEvents = s.frameEvents := by
  rcases afterRead_cases a s with h | h | h | h | h <;> rw [h] <;> rfl

@[simp] theorem afterRead_ppu_chr (a : Word) (s : State) : (afterRead a s).ppu.chr = s.ppu.chr := by
  rcases afterRead_cases a s with h | h | h | h | h <;> rw [h] <;> simp [Ppu.afterStatusRead, Ppu.afterDataRead_eq]

@[simp] theorem afterRead_ppu_mirroring (a : Word) (s : State) : (afterRead a s).ppu.mirroring = s.ppu.mirroring := by
  rcases afterRead_cases a s with h | h | h | h | h <;> rw [h] <;> simp [Ppu.afterStatusRead, Ppu.afterDataRead_eq]

@[simp] theorem afterRead_ppu_vram (a : Word) (s : State) : (afterRead a s).ppu.vram = s.ppu.vram := by
  rcases afterRead_cases a s with h | h | h | h | h <;> rw [h] <;> simp [Ppu.afterStatusRead, Ppu.afterDataRead_eq]

@[simp] theorem afterRead_ppu_palette (a : Word) (s : State) : (afterRead a s).ppu.palette = s.ppu.palette := by
  rcases afterRead_cases a s with h | h | h | h | h <;> rw [h] <;> simp [Ppu.afterStatusRead, Ppu.afterDataRead_eq]

@[simp] theorem afterRead_ppu_oam (a : Word) (s : State) : (afterRead a s).ppu.oam = s.ppu.oam := by
  rcases afterRead_cases a s with h | h | h | h | h <;> rw [h] <;> simp [Ppu.afterStatusRead, Ppu.afterDataRead_eq]

@[simp] theorem afterRead_ppu_ctrl (a : Word) (s : State) : (afterRead a s).ppu.ctrl = s.ppu.ctrl := by
  rcases afterRead_cases a s with h | h | h | h | h <;> rw [h] <;> simp [Ppu.afterStatusRead, Ppu.afterDataRead_eq]

@[simp] theorem afterRead_ppu_mask (a : Word) (s : State) : (afterRead a s).ppu.mask = s.ppu.mask := by
  rcases afterRead_cases a s with h | h | h | h | h <;> rw [h] <;> simp [Ppu.afterStatusRead, Ppu.afterDataRead_eq]

@[simp] theorem afterRead_ppu_spriteZero (a : Word) (s : State) : (afterRead a s).ppu.spriteZero = s.ppu.spriteZero := by
  rcases afterRead_cases a s with h | h | h | h | h <;> rw [h] <;> simp [Ppu.afterStatusRead, Ppu.afterDataRead_eq]

@[simp] theorem afterRead_ppu_overflow (a : Word) (s : State) : (afterRead a s).ppu.overflow = s.ppu.overflow := by
  rcases afterRead_cases a s with h | h | h | h | h <;> rw [h] <;> simp [Ppu.afterStatusRead, Ppu.afterDataRead_eq]

@[simp] theorem afterRead_ppu_oamAddr (a : Word) (s : State) : (afterRead a s).ppu.oamAddr = s.ppu.oamAddr := by
  rcases afterRead_cases a s with h | h | h | h | h <;> rw [h] <;> simp [Ppu.afterStatusRead, Ppu.afterDataRead_eq]

@[simp] theorem afterRead_ppu_scrollX (a : Word) (s : State) : (afterRead a s).ppu.scrollX = s.ppu.scrollX := by
  rcases afterRead_cases a s with h | h | h | h | h <;> rw [h] <;> simp [Ppu.afterStatusRead, Ppu.afterDataRead_eq]

@[simp] theorem afterRead_ppu_scrollY (a : Word) (s : State) : (afterRead a s).ppu.scrollY = s.ppu.scrollY := by
  rcases afterRead_cases a s with h | h | h | h | h <;> rw [h] <;> simp [Ppu.afterStatusRead, Ppu.afterDataRead_eq]

@[simp] theorem afterRead_ppu_scanline (a : Word) (s : State) : (afterRead a s).ppu.scanline = s.ppu.scanline := by
  rcases afterRead_cases a s with h | h | h | h | h <;> rw [h] <;> simp [Ppu.afterStatusRead, Ppu.afterDataRead_eq]

@[simp] theorem afterRead_ppu_dot (a : Word) (s : State) : (afterRead a s).ppu.dot = s.ppu.dot := by
  rcases afterRead_cases a s with h | h | h | h | h <;> rw [h] <;> simp [Ppu.afterStatusRead, Ppu.afterDataRead_eq]

@[simp] theorem afterRead_ppu_nmiPending (a : Word) (s : State) : (afterRead a s).ppu.nmiPending = s.ppu.nmiPending := by
  rcases afterRead_cases a s with h | h | h | h | h <;> rw [h] <;> simp [Ppu.afterStatusRead, Ppu.afterDataRead_eq]

@[simp] theorem afterRead_ppu_oracleIndex (a : Word) (s : State) : (afterRead a s).ppu.oracleIndex = s.ppu.oracleIndex := by
  rcases afterRead_cases a s with h | h | h | h | h <;> rw [h] <;> simp [Ppu.afterStatusRead, Ppu.afterDataRead_eq]

theorem SameCore.refl (s : State) : SameCore s s := by simp [SameCore]

theorem SameCore.trans {s t u : State} (h : SameCore s t) (k : SameCore t u) : SameCore s u := by
  unfold SameCore at *
  simp_all

theorem sameCore_afterRead (a : Word) (s : State) : SameCore s (afterRead a s) := by simp [SameCore]

/-- One byte of an OAM DMA that does not fault. -/
theorem dmaByte_ok {a : Word} {s : State} (h : ReadOk a s) :
    dmaByte a s = .ok ((afterRead a s).setPpu ((afterRead a s).ppu.writeOamData (readByte a s))) := by
  simp [dmaByte, memRead_ok h]

theorem sameCore_dmaByte {a : Word} {s t : State} (h : dmaByte a s = .ok t) : SameCore s t := by
  unfold dmaByte at h
  by_cases hr : ReadOk a s
  · rw [memRead_ok hr] at h
    simp only [Except.ok.injEq] at h
    subst h
    simp [SameCore, Ppu.writeOamData]
  · rw [memRead_fault hr] at h
    cases h

theorem sameCore_dmaCopy {pg : Byte} {n : Nat} {s t : State} (h : dmaCopy pg n s = .ok t) : SameCore s t := by
  induction n generalizing s with
  | zero =>
    simp only [dmaCopy, Except.ok.injEq] at h
    exact h ▸ SameCore.refl s
  | succ n ih =>
    unfold dmaCopy at h
    split at h
    · cases h
    · next u hu => exact (sameCore_dmaByte hu).trans (ih h)

theorem sameCore_tick (s : State) (n : Nat) : SameCore s (s.tick n) := by simp [SameCore]

theorem sameCore_oamDma {pg : Byte} {s t : State} (h : oamDma pg s = .ok t) : SameCore s t := by
  unfold oamDma at h
  split at h
  · cases h
  · next u hu =>
    simp only [Except.ok.injEq] at h
    exact h ▸ (sameCore_dmaCopy hu).trans (sameCore_tick u _)

/-- A PPU data write, field by field. -/
theorem Ppu.write_cases (p : Ppu) (a : BitVec 14) (v : Byte) :
    p.write a v = p ∨ (p.write a v = { p with vram := p.vram.write (ntIndex p.mirroring a) v } ∧ p.mirroring ≠ .fourScreen) ∨
    p.write a v = { p with palette := p.palette.write (palIndex a) v } := by
  unfold Ppu.write
  split
  · simp
  · split
    · cases hm : p.mirroring <;> simp
    · simp

/-- A scroll write changes the scroll register and a toggle only. -/
theorem Ppu.writeScroll_eq (p : Ppu) (shared : Bool) (val : Byte) :
    ∃ sx sy sw aw, p.writeScroll shared val = { p with scrollX := sx, scrollY := sy, scrollW := sw, addrW := aw } := by
  unfold Ppu.writeScroll Ppu.flipScrollToggle
  split <;> split <;> exact ⟨_, _, _, _, rfl⟩

/-- A data write changes `v` and one byte of VRAM or palette only. -/
theorem Ppu.writeData_eq (p : Ppu) (val : Byte) :
    ∃ m q w, p.writeData val = { p with vram := m, palette := q, v := w } := by
  unfold Ppu.writeData Ppu.advanceV
  rcases Ppu.write_cases p p.v val with h | h | h <;> simp only [h] <;> exact ⟨_, _, _, rfl⟩

/-- A write that does not fault changes nothing outside RAM, the PPU's registers and memories, the cycle count, the input device
and the draws. -/
theorem sameCore_memWrite {a : Word} {v : Byte} {s t : State} (h : memWrite a v s = .ok t) : SameCore s t := by
  unfold memWrite at h
  split at h
  · cases h
  · split at h
    case h_9 => exact sameCore_oamDma h
    case h_6 =>
      obtain ⟨sx, sy, sw, aw, he⟩ := Ppu.writeScroll_eq s.ppu s.params.sharedW v
      rw [he] at h
      cases h
      simp [SameCore]
    case h_8 =>
      obtain ⟨m, q, w, he⟩ := Ppu.writeData_eq s.ppu v
      rw [he] at h
      cases h
      simp [SameCore]
    all_goals
      cases h
      simp [SameCore, Ppu.writeCtrl, Ppu.writeMask, Ppu.writeOamAddr, Ppu.writeOamData, Ppu.writeAddr]

end Sys2Proof.Machine
end

