-- ==== Sys2Proof/Laws/Fetch.lean ====
section
/-! SUPPORT. What a fetch at PC can do, wherever PC is, and that no read looks at the step context. -/

namespace Sys2Proof.Machine

theorem readByte_setCtx (a : Word) (s : State) (c : StepCtx) : readByte a (s.setCtx c) = readByte a s := rfl

theorem readOk_setCtx (a : Word) (s : State) (c : StepCtx) : ReadOk a (s.setCtx c) ↔ ReadOk a s := Iff.rfl

theorem afterRead_setCtx (a : Word) (s : State) (c : StepCtx) : afterRead a (s.setCtx c) = (afterRead a s).setCtx c := by
  unfold afterRead
  have h : region (s.setCtx c).prgSize a = region s.prgSize a := rfl
  have h' : (s.setCtx c).params = s.params := rfl
  rw [h, h']
  split
  · cases s.params.statusLowBits <;> rfl
  all_goals rfl

/-- The step context passes through a fetch untouched. -/
theorem pastByte_setCtx (s : State) (c : StepCtx) : pastByte (s.setCtx c) = (pastByte s).setCtx c := by
  show ({ afterRead s.pc (s.setCtx c) with pc := s.pc + 1 } : State) = _
  rw [afterRead_setCtx]
  rfl

theorem pastByte_pc (s : State) : (pastByte s).pc = s.pc + 1 := rfl

/-- A fetch of a byte whose read completes. -/
theorem fetch8_ok {s : State} (h : ReadOk s.pc s) : fetch8 s = .ok (readByte s.pc s, pastByte s) := by
  have hp : (afterRead s.pc s).pc = s.pc := by simp
  simp only [fetch8, memRead_ok h, hp]
  rfl

/-- A fetch of a byte whose read faults. -/
theorem fetch8_fault {s : State} (h : ¬ ReadOk s.pc s) : fetch8 s = .error (faultAt (.ppuWriteOnlyRead s.pc) s) := by
  simp only [fetch8, memRead_fault h]

end Sys2Proof.Machine
end

