-- ==== Sys2Proof/Laws/PerInstr.lean ====
section
/-! SUPPORT. The statements made of every instruction, one lemma per constructor. -/

namespace Sys2Proof.Laws

/-- An instruction is well formed exactly when it has an encoding, and then the encoding has the instruction's length, which is
1, 2 or 3 bytes (30_encoding.md R150, R151). -/
def WfEncodes.Statement (i : Instr) : Prop :=
  i.wellFormed = i.opcode?.isSome ∧ 1 ≤ i.length ∧ i.length ≤ 3 ∧ (i.wellFormed = true → (encode i).length = i.length)

/-- The part of `WfEncodes.Statement` that holds by the form of `encode`. -/
theorem WfEncodes.of {i : Instr} (h : i.wellFormed = i.opcode?.isSome) (hl : i.operandBytes.length ≤ 2) :
    WfEncodes.Statement i := by
  refine ⟨h, by simp [Instr.length], by simp [Instr.length]; omega, fun hw => ?_⟩
  rw [h, Option.isSome_iff_exists] at hw
  obtain ⟨c, hc⟩ := hw
  simp [encode, hc, Instr.length, Nat.add_comm]

theorem WfEncodes.code_isSome (code : Byte) (codes : List Byte) :
    decide (code ∈ codes) = (if code ∈ codes then some code else none).isSome := by
  split <;> simp_all

theorem WfEncodes.operandBytes_le (o : Operand) : o.bytes.length ≤ 2 := by
  cases o <;> simp [Operand.bytes]

theorem WfEncodes.lda (o : Operand) : WfEncodes.Statement (.lda o) :=
  WfEncodes.of (by cases o <;> rfl) (WfEncodes.operandBytes_le o)

theorem WfEncodes.ldx (o : Operand) : WfEncodes.Statement (.ldx o) :=
  WfEncodes.of (by cases o <;> rfl) (WfEncodes.operandBytes_le o)

theorem WfEncodes.ldy (o : Operand) : WfEncodes.Statement (.ldy o) :=
  WfEncodes.of (by cases o <;> rfl) (WfEncodes.operandBytes_le o)

theorem WfEncodes.sta (o : Operand) : WfEncodes.Statement (.sta o) :=
  WfEncodes.of (by cases o <;> rfl) (WfEncodes.operandBytes_le o)

theorem WfEncodes.stx (o : Operand) : WfEncodes.Statement (.stx o) :=
  WfEncodes.of (by cases o <;> rfl) (WfEncodes.operandBytes_le o)

theorem WfEncodes.sty (o : Operand) : WfEncodes.Statement (.sty o) :=
  WfEncodes.of (by cases o <;> rfl) (WfEncodes.operandBytes_le o)

theorem WfEncodes.tax : WfEncodes.Statement .tax :=
  WfEncodes.of rfl (Nat.le_of_ble_eq_true rfl)

theorem WfEncodes.tay : WfEncodes.Statement .tay :=
  WfEncodes.of rfl (Nat.le_of_ble_eq_true rfl)

theorem WfEncodes.txa : WfEncodes.Statement .txa :=
  WfEncodes.of rfl (Nat.le_of_ble_eq_true rfl)

theorem WfEncodes.tya : WfEncodes.Statement .tya :=
  WfEncodes.of rfl (Nat.le_of_ble_eq_true rfl)

theorem WfEncodes.tsx : WfEncodes.Statement .tsx :=
  WfEncodes.of rfl (Nat.le_of_ble_eq_true rfl)

theorem WfEncodes.txs : WfEncodes.Statement .txs :=
  WfEncodes.of rfl (Nat.le_of_ble_eq_true rfl)

theorem WfEncodes.adc (o : Operand) : WfEncodes.Statement (.adc o) :=
  WfEncodes.of (by cases o <;> rfl) (WfEncodes.operandBytes_le o)

theorem WfEncodes.sbc (o : Operand) : WfEncodes.Statement (.sbc o) :=
  WfEncodes.of (by cases o <;> rfl) (WfEncodes.operandBytes_le o)

theorem WfEncodes.and (o : Operand) : WfEncodes.Statement (.and o) :=
  WfEncodes.of (by cases o <;> rfl) (WfEncodes.operandBytes_le o)

theorem WfEncodes.ora (o : Operand) : WfEncodes.Statement (.ora o) :=
  WfEncodes.of (by cases o <;> rfl) (WfEncodes.operandBytes_le o)

theorem WfEncodes.eor (o : Operand) : WfEncodes.Statement (.eor o) :=
  WfEncodes.of (by cases o <;> rfl) (WfEncodes.operandBytes_le o)

theorem WfEncodes.cmp (o : Operand) : WfEncodes.Statement (.cmp o) :=
  WfEncodes.of (by cases o <;> rfl) (WfEncodes.operandBytes_le o)

theorem WfEncodes.cpx (o : Operand) : WfEncodes.Statement (.cpx o) :=
  WfEncodes.of (by cases o <;> rfl) (WfEncodes.operandBytes_le o)

theorem WfEncodes.cpy (o : Operand) : WfEncodes.Statement (.cpy o) :=
  WfEncodes.of (by cases o <;> rfl) (WfEncodes.operandBytes_le o)

theorem WfEncodes.bit (o : Operand) : WfEncodes.Statement (.bit o) :=
  WfEncodes.of (by cases o <;> rfl) (WfEncodes.operandBytes_le o)

theorem WfEncodes.inc (o : Operand) : WfEncodes.Statement (.inc o) :=
  WfEncodes.of (by cases o <;> rfl) (WfEncodes.operandBytes_le o)

theorem WfEncodes.dec (o : Operand) : WfEncodes.Statement (.dec o) :=
  WfEncodes.of (by cases o <;> rfl) (WfEncodes.operandBytes_le o)

theorem WfEncodes.inx : WfEncodes.Statement .inx :=
  WfEncodes.of rfl (Nat.le_of_ble_eq_true rfl)

theorem WfEncodes.iny : WfEncodes.Statement .iny :=
  WfEncodes.of rfl (Nat.le_of_ble_eq_true rfl)

theorem WfEncodes.dex : WfEncodes.Statement .dex :=
  WfEncodes.of rfl (Nat.le_of_ble_eq_true rfl)

theorem WfEncodes.dey : WfEncodes.Statement .dey :=
  WfEncodes.of rfl (Nat.le_of_ble_eq_true rfl)

theorem WfEncodes.asl (o : Operand) : WfEncodes.Statement (.asl o) :=
  WfEncodes.of (by cases o <;> rfl) (WfEncodes.operandBytes_le o)

theorem WfEncodes.lsr (o : Operand) : WfEncodes.Statement (.lsr o) :=
  WfEncodes.of (by cases o <;> rfl) (WfEncodes.operandBytes_le o)

theorem WfEncodes.rol (o : Operand) : WfEncodes.Statement (.rol o) :=
  WfEncodes.of (by cases o <;> rfl) (WfEncodes.operandBytes_le o)

theorem WfEncodes.ror (o : Operand) : WfEncodes.Statement (.ror o) :=
  WfEncodes.of (by cases o <;> rfl) (WfEncodes.operandBytes_le o)

theorem WfEncodes.bcc (off : Byte) : WfEncodes.Statement (.bcc off) :=
  WfEncodes.of rfl (Nat.le_of_ble_eq_true rfl)

theorem WfEncodes.bcs (off : Byte) : WfEncodes.Statement (.bcs off) :=
  WfEncodes.of rfl (Nat.le_of_ble_eq_true rfl)

theorem WfEncodes.beq (off : Byte) : WfEncodes.Statement (.beq off) :=
  WfEncodes.of rfl (Nat.le_of_ble_eq_true rfl)

theorem WfEncodes.bne (off : Byte) : WfEncodes.Statement (.bne off) :=
  WfEncodes.of rfl (Nat.le_of_ble_eq_true rfl)

theorem WfEncodes.bmi (off : Byte) : WfEncodes.Statement (.bmi off) :=
  WfEncodes.of rfl (Nat.le_of_ble_eq_true rfl)

theorem WfEncodes.bpl (off : Byte) : WfEncodes.Statement (.bpl off) :=
  WfEncodes.of rfl (Nat.le_of_ble_eq_true rfl)

theorem WfEncodes.bvc (off : Byte) : WfEncodes.Statement (.bvc off) :=
  WfEncodes.of rfl (Nat.le_of_ble_eq_true rfl)

theorem WfEncodes.bvs (off : Byte) : WfEncodes.Statement (.bvs off) :=
  WfEncodes.of rfl (Nat.le_of_ble_eq_true rfl)

theorem WfEncodes.jmp (target : Word) : WfEncodes.Statement (.jmp target) :=
  WfEncodes.of rfl (Nat.le_of_ble_eq_true rfl)

theorem WfEncodes.jmpInd (ptr : Word) : WfEncodes.Statement (.jmpInd ptr) :=
  WfEncodes.of rfl (Nat.le_of_ble_eq_true rfl)

theorem WfEncodes.jsr (target : Word) : WfEncodes.Statement (.jsr target) :=
  WfEncodes.of rfl (Nat.le_of_ble_eq_true rfl)

theorem WfEncodes.rts : WfEncodes.Statement .rts :=
  WfEncodes.of rfl (Nat.le_of_ble_eq_true rfl)

theorem WfEncodes.rti : WfEncodes.Statement .rti :=
  WfEncodes.of rfl (Nat.le_of_ble_eq_true rfl)

theorem WfEncodes.brk : WfEncodes.Statement .brk :=
  WfEncodes.of rfl (Nat.le_of_ble_eq_true rfl)

theorem WfEncodes.pha : WfEncodes.Statement .pha :=
  WfEncodes.of rfl (Nat.le_of_ble_eq_true rfl)

theorem WfEncodes.php : WfEncodes.Statement .php :=
  WfEncodes.of rfl (Nat.le_of_ble_eq_true rfl)

theorem WfEncodes.pla : WfEncodes.Statement .pla :=
  WfEncodes.of rfl (Nat.le_of_ble_eq_true rfl)

theorem WfEncodes.plp : WfEncodes.Statement .plp :=
  WfEncodes.of rfl (Nat.le_of_ble_eq_true rfl)

theorem WfEncodes.clc : WfEncodes.Statement .clc :=
  WfEncodes.of rfl (Nat.le_of_ble_eq_true rfl)

theorem WfEncodes.cld : WfEncodes.Statement .cld :=
  WfEncodes.of rfl (Nat.le_of_ble_eq_true rfl)

theorem WfEncodes.cli : WfEncodes.Statement .cli :=
  WfEncodes.of rfl (Nat.le_of_ble_eq_true rfl)

theorem WfEncodes.clv : WfEncodes.Statement .clv :=
  WfEncodes.of rfl (Nat.le_of_ble_eq_true rfl)

theorem WfEncodes.sec : WfEncodes.Statement .sec :=
  WfEncodes.of rfl (Nat.le_of_ble_eq_true rfl)

theorem WfEncodes.sed : WfEncodes.Statement .sed :=
  WfEncodes.of rfl (Nat.le_of_ble_eq_true rfl)

theorem WfEncodes.sei : WfEncodes.Statement .sei :=
  WfEncodes.of rfl (Nat.le_of_ble_eq_true rfl)

theorem WfEncodes.nop : WfEncodes.Statement .nop :=
  WfEncodes.of rfl (Nat.le_of_ble_eq_true rfl)

theorem WfEncodes.slo (o : Operand) : WfEncodes.Statement (.slo o) :=
  WfEncodes.of (by cases o <;> rfl) (WfEncodes.operandBytes_le o)

theorem WfEncodes.rla (o : Operand) : WfEncodes.Statement (.rla o) :=
  WfEncodes.of (by cases o <;> rfl) (WfEncodes.operandBytes_le o)

theorem WfEncodes.sre (o : Operand) : WfEncodes.Statement (.sre o) :=
  WfEncodes.of (by cases o <;> rfl) (WfEncodes.operandBytes_le o)

theorem WfEncodes.rra (o : Operand) : WfEncodes.Statement (.rra o) :=
  WfEncodes.of (by cases o <;> rfl) (WfEncodes.operandBytes_le o)

theorem WfEncodes.sax (o : Operand) : WfEncodes.Statement (.sax o) :=
  WfEncodes.of (by cases o <;> rfl) (WfEncodes.operandBytes_le o)

theorem WfEncodes.lax (o : Operand) : WfEncodes.Statement (.lax o) :=
  WfEncodes.of (by cases o <;> rfl) (WfEncodes.operandBytes_le o)

theorem WfEncodes.dcp (o : Operand) : WfEncodes.Statement (.dcp o) :=
  WfEncodes.of (by cases o <;> rfl) (WfEncodes.operandBytes_le o)

theorem WfEncodes.isb (o : Operand) : WfEncodes.Statement (.isb o) :=
  WfEncodes.of (by cases o <;> rfl) (WfEncodes.operandBytes_le o)

theorem WfEncodes.anc (code : Byte) (imm : Byte) : WfEncodes.Statement (.anc code imm) :=
  WfEncodes.of (WfEncodes.code_isSome code ancCodes) (Nat.le_of_ble_eq_true rfl)

theorem WfEncodes.alr (imm : Byte) : WfEncodes.Statement (.alr imm) :=
  WfEncodes.of rfl (Nat.le_of_ble_eq_true rfl)

theorem WfEncodes.arr (imm : Byte) : WfEncodes.Statement (.arr imm) :=
  WfEncodes.of rfl (Nat.le_of_ble_eq_true rfl)

theorem WfEncodes.axs (imm : Byte) : WfEncodes.Statement (.axs imm) :=
  WfEncodes.of rfl (Nat.le_of_ble_eq_true rfl)

theorem WfEncodes.sbcEB (imm : Byte) : WfEncodes.Statement (.sbcEB imm) :=
  WfEncodes.of rfl (Nat.le_of_ble_eq_true rfl)

theorem WfEncodes.las (base : Word) : WfEncodes.Statement (.las base) :=
  WfEncodes.of rfl (Nat.le_of_ble_eq_true rfl)

theorem WfEncodes.xaa (imm : Byte) : WfEncodes.Statement (.xaa imm) :=
  WfEncodes.of rfl (Nat.le_of_ble_eq_true rfl)

theorem WfEncodes.lxa (imm : Byte) : WfEncodes.Statement (.lxa imm) :=
  WfEncodes.of rfl (Nat.le_of_ble_eq_true rfl)

theorem WfEncodes.ahx (o : Operand) : WfEncodes.Statement (.ahx o) :=
  WfEncodes.of (by cases o <;> rfl) (WfEncodes.operandBytes_le o)

theorem WfEncodes.shx (base : Word) : WfEncodes.Statement (.shx base) :=
  WfEncodes.of rfl (Nat.le_of_ble_eq_true rfl)

theorem WfEncodes.shy (base : Word) : WfEncodes.Statement (.shy base) :=
  WfEncodes.of rfl (Nat.le_of_ble_eq_true rfl)

theorem WfEncodes.tas (base : Word) : WfEncodes.Statement (.tas base) :=
  WfEncodes.of rfl (Nat.le_of_ble_eq_true rfl)

theorem WfEncodes.nopImmediate (code : Byte) (imm : Byte) : WfEncodes.Statement (.nopImmediate code imm) :=
  WfEncodes.of (WfEncodes.code_isSome code nopImmediateCodes) (Nat.le_of_ble_eq_true rfl)

theorem WfEncodes.nopMemory (code : Byte) (o : Operand) : WfEncodes.Statement (.nopMemory code o) :=
  WfEncodes.of (WfEncodes.code_isSome code (nopMemoryCodes o.mode)) (WfEncodes.operandBytes_le o)

theorem WfEncodes.nopImplied (code : Byte) : WfEncodes.Statement (.nopImplied code) :=
  WfEncodes.of (WfEncodes.code_isSome code nopImpliedCodes) (Nat.le_of_ble_eq_true rfl)

theorem WfEncodes.jam (code : Byte) : WfEncodes.Statement (.jam code) :=
  WfEncodes.of (WfEncodes.code_isSome code jamCodes) (Nat.le_of_ble_eq_true rfl)

end Sys2Proof.Laws
end

