-- ==== Sys2Proof/Laws/Writes.lean ====
section
/-! SUPPORT. When a CPU write completes, and that accesses keep the memories canonical and inside their sizes. -/

namespace Sys2Proof.Machine

theorem w16_toNat (h l : Byte) : (w16 h l).toNat = h.toNat * 256 + l.toNat := by
  have hh := h.isLt
  have hl := l.isLt
  simp only [w16, BitVec.toNat_append]
  rw [Nat.shiftLeft_eq, Nat.mul_comm h.toNat]
  rw [← Nat.two_pow_add_eq_or_of_lt hl]

theorem ofNat8_toNat {n : Nat} (h : n < 256) : (BitVec.ofNat 8 n).toNat = n := by
  simp [BitVec.toNat_ofNat]; omega

/-- The pages an OAM DMA copies without a fault. -/
abbrev DmaOk (pg : Byte) (s : State) : Prop := pg.toNat < 0x20 ∨ 0x40 ≤ pg.toNat ∨ s.params.woRead = .any

theorem readOk_of_dmaOk {pg : Byte} {s : State} (h : DmaOk pg s) (k : Byte) : ReadOk (w16 pg k) s := by
  have hk := k.isLt
  rintro ⟨h1, h2, _, h4⟩
  rw [w16_toNat] at h1 h2
  rcases h with h | h | h
  · omega
  · omega
  · rw [h] at h4; cases h4

theorem dmaByte_next {pg k : Byte} {s : State} (h : DmaOk pg s) :
    ∃ t, dmaByte (w16 pg k) s = .ok t ∧ t.params = s.params :=
  ⟨_, dmaByte_ok (readOk_of_dmaOk h k), by simp⟩

theorem dmaCopy_next {pg : Byte} {n : Nat} {s : State} (h : DmaOk pg s) : ∃ t, dmaCopy pg n s = .ok t := by
  induction n generalizing s with
  | zero => exact ⟨s, rfl⟩
  | succ n ih =>
    obtain ⟨u, hu, hp⟩ := dmaByte_next (k := BitVec.ofNat 8 (255 - n)) h
    obtain ⟨t, ht⟩ := ih (s := u) (by simpa [DmaOk, hp] using h)
    exact ⟨t, by simp [dmaCopy, hu, ht]⟩

theorem dmaCopy_fault {pg : Byte} {s : State} (h : ¬ DmaOk pg s) :
    dmaCopy pg 256 s = .error (faultAt (.ppuWriteOnlyRead (w16 pg 0)) s) := by
  simp only [DmaOk, not_or] at h
  have hr : ¬ ReadOk (w16 pg 0) s := by
    simp only [ReadOk, not_not]
    rw [w16_toNat]
    refine ⟨by simp; omega, by simp; omega, by simp; omega, ?_⟩
    cases hw : s.params.woRead
    · rfl
    · exact absurd hw h.2.2
  have hb : dmaByte (w16 pg (BitVec.ofNat 8 (255 - 255))) s = .error (faultAt (.ppuWriteOnlyRead (w16 pg 0)) s) := by
    unfold dmaByte
    rw [Nat.sub_self, memRead_fault (a := w16 pg (BitVec.ofNat 8 0)) hr]
    rfl
  rw [show (256 : Nat) = 255 + 1 from rfl, dmaCopy]
  simp only [hb]

/-- A write that completes. -/
theorem memWrite_next {a : Word} {v : Byte} {s : State} (h : WriteOk a v s) : ∃ t, memWrite a v s = .ok t := by
  obtain ⟨h1, h2, h3, h4⟩ := h
  unfold memWrite writeFault? region
  by_cases r1 : a.toNat < 0x2000
  · simp [r1]
  by_cases r2 : a.toNat < 0x4000
  · simp only [r1, r2, if_true, if_false]
    have h2 := h2 (by omega) r2
    have h3 := h3 (by omega) r2
    have hm : a.toNat % 8 < 8 := Nat.mod_lt _ (by omega)
    unfold ppuRegAt
    generalize a.toNat % 8 = m at h2 h3 hm ⊢
    match m, hm with
    | 0, _ | 1, _ | 3, _ | 4, _ | 5, _ | 6, _ => simp
    | 2, _ => simp [h2 rfl]
    | 7, _ =>
      have h3 := h3 rfl
      have : ¬ (s.ppu.v.toNat ≤ 0x1FFF ∧ s.params.chrWrite = .fault) := by
        rintro ⟨hv, hc⟩
        rcases h3 with h3 | h3
        · omega
        · rw [hc] at h3; cases h3
      simp [this]
  · by_cases r3 : a.toNat = 0x4014
    · obtain ⟨t, ht⟩ := dmaCopy_next (pg := v) (n := 256) (h4 r3)
      simp [r3, oamDma, ht]
    · simp only [r1, r2, r3, if_false]
      split_ifs <;> simp

/-- A write that faults. -/
theorem memWrite_error {a : Word} {v : Byte} {s : State} (h : ¬ WriteOk a v s) : ∃ e, memWrite a v s = .error e := by
  by_cases r0 : a.toNat < 0x8000
  · by_cases r1 : a.toNat = 0x4014
    · have hd : ¬ DmaOk v s := by
        intro hd
        exact h ⟨r0, by omega, by omega, fun _ => hd⟩
      refine ⟨faultAt (.ppuWriteOnlyRead (w16 v 0)) s, ?_⟩
      simp [memWrite, writeFault?, region, r1, oamDma, dmaCopy_fault hd]
    · by_cases r2 : 0x2000 ≤ a.toNat ∧ a.toNat < 0x4000
      · have hm : a.toNat % 8 < 8 := Nat.mod_lt _ (by omega)
        have hnn : ¬ a.toNat < 0x2000 := by omega
        unfold memWrite writeFault? region ppuRegAt
        simp only [hnn, r2.2, if_true, if_false]
        by_cases c1 : a.toNat % 8 = 2 ∧ s.params.statusWrite = .fault
        · simp [c1.1, c1.2]
        by_cases c2 : a.toNat % 8 = 7 ∧ s.ppu.v.toNat ≤ 0x1FFF ∧ s.params.chrWrite = .fault
        · simp [c2.1, c2.2]
        exfalso
        apply h
        refine ⟨r0, ?_, ?_, fun e => absurd e r1⟩
        · intro _ _ e
          cases hw : s.params.statusWrite
          · exact absurd ⟨e, hw⟩ c1
          · rfl
        · intro _ _ e
          cases hw : s.params.chrWrite
          · left
            by_contra hv
            exact c2 ⟨e, by omega, hw⟩
          · exact .inr rfl
      · exfalso
        exact h ⟨r0, by omega, by omega, fun e => absurd e r1⟩
  · refine ⟨faultAt (.romWriteAttempt .cpu a v) s, ?_⟩
    have : ∀ n, n ≤ 0x8000 → ¬ a.toNat < n := by omega
    have r3 : a.toNat ≠ 0x4014 ∧ a.toNat ≠ 0x4015 ∧ a.toNat ≠ 0x4016 ∧ a.toNat ≠ 0x4017 := by omega
    simp [memWrite, writeFault?, region, this, r3, raise_eq_faultAt]

/-! ## The invariant and accesses -/

/-- What accesses keep of the invariant. -/
abbrev MemInv (s : State) : Prop := (s.ram.wf = true ∧ s.ram.within 2048 = true) ∧ s.ppu.Inv

theorem palIndex_lt (a : BitVec 14) : palIndex a < 32 := by
  unfold palIndex
  have := Nat.mod_lt a.toNat (show 32 > 0 by omega)
  dsimp only
  split <;> omega

theorem ntIndex_lt (m : Mirroring) (a : BitVec 14) : ntIndex m a < 2048 := by
  have h1 : (a &&& 0x2FFF).toNat < 0x3000 := by
    rw [BitVec.toNat_and]
    exact Nat.lt_of_le_of_lt Nat.and_le_right (by decide)
  unfold ntIndex
  generalize (a &&& 0x2FFF).toNat = r at h1
  have hb : ntBank m ((r - 0x2000) / 0x400) ≤ 1 := by
    unfold ntBank
    cases m <;> dsimp only <;> omega
  have := Nat.mod_lt (r - 0x2000) (show 0x400 > 0 by omega)
  dsimp only
  omega

theorem memInv_afterRead {s : State} (a : Word) (h : MemInv s) : MemInv (afterRead a s) := by
  simpa [MemInv, Ppu.Inv] using h

theorem ppuInv_writeOamData {p : Ppu} (v : Byte) (h : p.Inv) : (p.writeOamData v).Inv := by
  obtain ⟨hc, hv, hp, ho, hs⟩ := h
  exact ⟨hc, hv, hp, ⟨Memory.wf_write _ _ ho.1, Memory.within_write _ p.oamAddr.isLt ho.2⟩, hs⟩

theorem ppuInv_write {p : Ppu} (a : BitVec 14) (v : Byte) (h : p.Inv) : (p.write a v).Inv := by
  obtain ⟨hc, hv, hp, ho, hs⟩ := h
  rcases Ppu.write_cases p a v with e | e | e
  · rw [e]; exact ⟨hc, hv, hp, ho, hs⟩
  · rw [e.1]; exact ⟨hc, ⟨Memory.wf_write _ _ hv.1, Memory.within_write _ (ntIndex_lt _ _) hv.2⟩, hp, ho, hs⟩
  · rw [e]; exact ⟨hc, hv, ⟨Memory.wf_write _ _ hp.1, Memory.within_write _ (palIndex_lt _) hp.2⟩, ho, hs⟩

theorem memInv_dmaCopy {pg : Byte} {n : Nat} {s t : State} (hi : MemInv s) (h : dmaCopy pg n s = .ok t) : MemInv t := by
  induction n generalizing s with
  | zero => cases h; exact hi
  | succ n ih =>
    unfold dmaCopy dmaByte at h
    by_cases hr : ReadOk (w16 pg (BitVec.ofNat 8 (255 - n))) s
    · rw [memRead_ok hr] at h
      refine ih ?_ h
      have := memInv_afterRead (w16 pg (BitVec.ofNat 8 (255 - n))) hi
      exact ⟨by simpa using this.1, ppuInv_writeOamData _ this.2⟩
    · rw [memRead_fault hr] at h
      cases h

/-- A write that does not fault keeps RAM and the PPU's memories canonical. -/
theorem memInv_memWrite {a : Word} {v : Byte} {s t : State} (hi : MemInv s) (h : memWrite a v s = .ok t) :
    MemInv t := by
  unfold memWrite at h
  split at h
  · cases h
  · split at h
    case h_1 i hreg =>
      cases h
      have hlt : i < 2048 := by
        unfold region at hreg
        dsimp only at hreg
        split_ifs at hreg
        simp at hreg
        have := Nat.mod_lt a.toNat (show 0x800 > 0 by omega)
        omega
      exact ⟨⟨Memory.wf_write _ _ hi.1.1, Memory.within_write _ hlt hi.1.2⟩, hi.2⟩
    case h_5 => cases h; exact ⟨hi.1, ppuInv_writeOamData _ hi.2⟩
    case h_6 =>
      obtain ⟨sx, sy, sw, aw, he⟩ := Ppu.writeScroll_eq s.ppu s.params.sharedW v
      rw [he] at h
      cases h
      exact hi
    case h_8 =>
      cases h
      exact ⟨hi.1, ppuInv_write (p := s.ppu) _ _ hi.2⟩
    case h_9 =>
      unfold oamDma at h
      split at h
      · cases h
      · next u hu =>
        cases h
        simpa [MemInv, State.tick, State.setCtx] using memInv_dmaCopy hi hu
    all_goals cases h; exact hi

end Sys2Proof.Machine
end

