-- ==== Sys2Proof/Laws/Shapes.lean ====
section
/-! SUPPORT. The shapes most instructions share (load, store, read-modify-write), said once each, and the model's flag and result
computations as the statements write them. -/

namespace Sys2Proof.Machine

/-! ## Frames of accesses -/

theorem StoreFrame.of_read {a b : Word} {s u t : State} (h : StoreFrame a u t) (hu : u = afterRead b s) : StoreFrame a s t := by
  subst hu
  refine ⟨(sameCore_afterRead b s).trans h.1, fun c hc hn => (h.2 c hc hn).trans ?_⟩
  unfold placeable at hc
  simp only [decide_eq_true_eq] at hc
  unfold readByte region
  rcases hc with hc | hc
  · simp [hc]
  · have h1 : ∀ n, n ≤ 0x8000 → ¬ c.toNat < n := by omega
    have h2 : c.toNat ≠ 0x4014 ∧ c.toNat ≠ 0x4015 ∧ c.toNat ≠ 0x4016 ∧ c.toNat ≠ 0x4017 := by omega
    simp [h1, h2]

/-- What RAM and PRG addresses read, at any address of theirs. -/
theorem readByte_of_placeable {b : Word} {s t : State} (hb : placeable b = true) (hp : t.prg = s.prg)
    (hz : t.prgSize = s.prgSize) (hr : b.toNat < 0x2000 → t.ram.read (b.toNat % 0x800) = s.ram.read (b.toNat % 0x800)) :
    readByte b t = readByte b s := by
  unfold placeable at hb
  simp only [decide_eq_true_eq] at hb
  unfold readByte region
  rcases hb with hb | hb
  · simp [hb, hr hb]
  · have h1 : ∀ n, n ≤ 0x8000 → ¬ b.toNat < n := by omega
    have h2 : b.toNat ≠ 0x4014 ∧ b.toNat ≠ 0x4015 ∧ b.toNat ≠ 0x4016 ∧ b.toNat ≠ 0x4017 := by omega
    simp [h1, h2, hp, hz]

theorem ram_dmaCopy {pg : Byte} {n : Nat} {s t : State} (h : dmaCopy pg n s = .ok t) : t.ram = s.ram := by
  induction n generalizing s with
  | zero => cases h; rfl
  | succ n ih =>
    unfold dmaCopy dmaByte at h
    by_cases hr : ReadOk (w16 pg (BitVec.ofNat 8 (255 - n))) s
    · rw [memRead_ok hr] at h
      simpa using ih h
    · rw [memRead_fault hr] at h
      cases h

/-- RAM after a write that does not fault. -/
theorem ram_memWrite {a : Word} {v : Byte} {s t : State} (h : memWrite a v s = .ok t) :
    t.ram = if a.toNat < 0x2000 then s.ram.write (a.toNat % 0x800) v else s.ram := by
  by_cases ha : a.toNat < 0x2000
  · unfold memWrite writeFault? region at h
    simp only [ha, if_true] at h ⊢
    cases h
    rfl
  · rw [if_neg ha]
    unfold memWrite at h
    split at h
    · cases h
    · split at h
      case h_1 i hreg =>
        unfold region at hreg
        dsimp only at hreg
        rw [if_neg ha] at hreg
        split_ifs at hreg
      case h_9 =>
        unfold oamDma at h
        split at h
        · cases h
        · next u hu =>
          cases h
          have hr := ram_dmaCopy hu
          simpa [State.tick, State.setCtx] using hr
      all_goals cases h; rfl

/-- A write that does not fault keeps the frame of its address. -/
theorem storeFrame_memWrite {a : Word} {v : Byte} {s t : State} (h : memWrite a v s = .ok t) : StoreFrame a s t := by
  have hc := sameCore_memWrite h
  refine ⟨hc, fun b hb hn => readByte_of_placeable hb ?_ ?_ fun hlt => ?_⟩
  · unfold SameCore at hc; exact hc.2.2.2.2.2.2.2.2.2.1
  · unfold SameCore at hc; exact hc.2.2.2.2.2.2.2.2.2.2.1
  · rw [ram_memWrite h]
    split
    · next ha => exact Memory.read_write_other _ _ fun e => hn ⟨ha, hlt, e.symm⟩
    · rfl

/-! ## Shapes -/

theorem resolves_iff (o : Operand) : resolves o = true ↔ o ≠ .acc ∧ o.mode ≠ .immediate := by
  cases o <;> simp [resolves, Operand.mode]

theorem effAddr_ok {o : Operand} {s : State} (h : resolves o = true) : effAddr o s = .ok (ea o s, crosses o s) := by
  simp [effAddr, h]

theorem load_imm (i : Instr) (b : Byte) (s : State) : load i (.imm b) s = .ok (b, s) := rfl

theorem load_ok {i : Instr} {o : Operand} {s : State} (h : OperandOk o s) :
    load i o s = .ok (operandByte o s, afterOperand i o s) := by
  obtain ⟨h1, h2⟩ := h
  cases o
  case acc => exact absurd rfl h1
  case imm b => rfl
  all_goals
    have h2 := h2.resolve_left (by simp [Operand.mode])
    simp only [load, effAddr, resolves, if_true, memRead_ok h2, operandByte, afterOperand, chargeCross, State.tick,
      State.setCtx, afterRead_ctx]

theorem load_fault {i : Instr} {o : Operand} {s : State} (ha : o ≠ .acc) (h : ¬ OperandOk o s) :
    load i o s = .error (faultAt (.ppuWriteOnlyRead (ea o s)) s) := by
  have h1 : o.mode ≠ .immediate := fun e => h ⟨ha, .inl e⟩
  have h2 : ¬ ReadOk (ea o s) s := fun e => h ⟨ha, .inr e⟩
  cases o
  case acc => exact absurd rfl ha
  case imm b => exact absurd rfl h1
  all_goals
    simp only [load, effAddr, resolves, if_true, memRead_fault h2]

/-- Every loading instruction. -/
theorem loadSpec_of {k : Operand → Instr} {f : Byte → State → State} (hw : (k .acc).wellFormed = false)
    (he : ∀ o s, exec (k o) s = onLoad (k o) o s f) : LoadSpec k f := by
  intro o s h
  have ha : o ≠ .acc := by rintro rfl; rw [hw] at h; cases h
  refine ⟨fun hr => ?_, fun hr => ?_⟩
  · rw [he, onLoad, load_ok hr]
  · rw [he, onLoad, load_fault ha hr]

theorem store_eq {o : Operand} (v : Byte) (s : State) (h : resolves o = true) : store o v s = memWrite (ea o s) v s := by
  simp [store, effAddr_ok h]

/-- Every plain storing instruction. -/
theorem storeSpec_of {k : Operand → Instr} {v : State → Byte} (hw : ∀ o, (k o).wellFormed = true → resolves o = true)
    (he : ∀ o s, exec (k o) s = onStore o (v s) s) : StoreSpec k v := by
  intro o s h
  have hr := hw o h
  refine ⟨fun hk => ?_, fun hk => ?_⟩
  · obtain ⟨t, ht⟩ := memWrite_next hk
    exact ⟨t, ht, by rw [he, onStore, store_eq _ _ hr, ht]; rfl, storeFrame_memWrite ht⟩
  · obtain ⟨e, he'⟩ := memWrite_error hk
    exact ⟨e, he', by rw [he, onStore, store_eq _ _ hr, he']; rfl⟩

theorem rmw_eq {o : Operand} (f : Byte → Byte) (s : State) (h : resolves o = true) :
    rmw o f s =
      match memRead (ea o s) s with
      | .error e => .error e
      | .ok (v, u) =>
        match memWrite (ea o s) (f v) u with
        | .error e => .error e
        | .ok t => .ok (v, t) := by
  cases o <;> first | rfl | cases h

/-- Every read-modify-write instruction, in its memory modes. -/
theorem rmwSpec_of {k : Operand → Instr} {f : Bool → Byte → Byte} {g : Bool → Byte → State → State}
    (hw : ∀ o, (k o).wellFormed = true → o ≠ .acc → resolves o = true)
    (he : ∀ o s, o ≠ .acc → exec (k o) s = onRmw o (f s.p.c) s (fun m t => g s.p.c m t)) : RmwSpec k f g := by
  intro o s h ha
  have hr := hw o h ha
  refine ⟨fun h1 h2 => ?_, fun h1 => ?_, fun h1 h2 => ?_⟩
  · obtain ⟨t, ht⟩ := memWrite_next h2
    refine ⟨t, ht, ?_, StoreFrame.of_read (storeFrame_memWrite ht) rfl⟩
    rw [he o s ha, onRmw, rmw_eq _ _ hr, memRead_ok h1]
    simp only [ht]
  · rw [he o s ha, onRmw, rmw_eq _ _ hr, memRead_fault h1]
  · obtain ⟨e, ht⟩ := memWrite_error h2
    refine ⟨e, ht, ?_⟩
    rw [he o s ha, onRmw, rmw_eq _ _ hr, memRead_ok h1]
    simp only [ht]

end Sys2Proof.Machine
end

