-- ==== Sys2Proof/Laws/Results.lean ====
section
/-! SUPPORT. The model's flag and result computations as the statements write them, and its words as numbers. -/

namespace Sys2Proof.Machine

theorem byte_zero_test (r : Byte) : (r == 0) = decide (r.toNat = 0) := by
  rw [Bool.eq_iff_iff, beq_iff_eq, decide_eq_true_iff, ← BitVec.toNat_inj]
  rfl

theorem byte_bit7 (r : Byte) : r.getLsbD 7 = decide (128 ≤ r.toNat) := by
  revert r; decide

theorem byte_bit6 (r : Byte) : r.getLsbD 6 = decide (64 ≤ r.toNat % 128) := by
  revert r; decide

theorem byte_bit5 (r : Byte) : r.getLsbD 5 = decide (32 ≤ r.toNat % 64) := by
  revert r; decide

theorem byte_bit0 (r : Byte) : r.getLsbD 0 = decide (r.toNat % 2 = 1) := by
  revert r; decide

theorem setNZ_eq (f : Flags) (r : Byte) : f.setNZ r = withNZ f r := by
  simp only [Flags.setNZ, withNZ, byte_zero_test, byte_bit7]

theorem compare_eq (f : Flags) (r m : Byte) : f.compare r m = withCompare f r m := by
  simp only [Flags.compare, withCompare, setNZ_eq, Flags.setC]

theorem aslCore_eq (v : Byte) : aslCore v = (shiftedLeft v false, topBit v) := by
  revert v; decide

theorem lsrCore_eq (v : Byte) : lsrCore v = (shiftedRight v false, lowBit v) := by
  revert v; decide

theorem rolCore_eq (v : Byte) (c : Bool) : rolCore v c = (shiftedLeft v c, topBit v) := by
  revert v c; decide

theorem rorCore_eq (v : Byte) (c : Bool) : rorCore v c = (shiftedRight v c, lowBit v) := by
  revert v c; decide

theorem arrResult_eq (v : Byte) (c : Bool) : arrResult v c = shiftedRight v c := by
  revert v c; decide

theorem sumByte_eq (a m : Byte) (c : Bool) : BitVec.ofNat 8 (a.toNat + m.toNat + c.toNat) = sumByte a m c := by
  apply BitVec.eq_of_toNat_eq
  simp [sumByte]

theorem overflow_eq (a m r : Byte) :
    (((a ^^^ r) &&& (m ^^^ r) &&& 0x80) != 0) =
      decide ((128 ≤ a.toNat ↔ 128 ≤ m.toNat) ∧ ¬ (128 ≤ r.toNat ↔ 128 ≤ a.toNat)) := by
  have h : ∀ b : Byte, (b &&& 0x80 != 0) = b.getLsbD 7 := by decide
  rw [h, BitVec.getLsbD_and, BitVec.getLsbD_xor, BitVec.getLsbD_xor, byte_bit7, byte_bit7, byte_bit7]
  by_cases h1 : 128 ≤ a.toNat <;> by_cases h2 : 128 ≤ m.toNat <;> by_cases h3 : 128 ≤ r.toNat <;> simp [h1, h2, h3]

theorem addToA_eq (s : State) (m : Byte) (c : Bool) : s.addToA m c = withSum s m c := by
  simp only [State.addToA, withSum, addCore, sumByte_eq, overflow_eq, State.setA, State.setP, Flags.setArith, Flags.setC,
    Flags.setV, setNZ_eq]

theorem complement_eq (m : Byte) : ~~~m = 255 - m := by
  revert m; decide

theorem subFromA_eq (s : State) (m : Byte) : s.subFromA m = withDifference s m := by
  rw [withDifference, ← addToA_eq, ← complement_eq]
  rfl

theorem hi_eq (w : Word) : hi w = BitVec.ofNat 8 (w.toNat / 256) := by
  apply BitVec.eq_of_toNat_eq
  simp [hi, BitVec.extractLsb'_toNat, Nat.shiftRight_eq_div_pow]

theorem lo_eq (w : Word) : lo w = BitVec.ofNat 8 (w.toNat % 256) := by
  apply BitVec.eq_of_toNat_eq
  simp [lo, BitVec.extractLsb'_toNat]

theorem w16_eq (h l : Byte) : w16 h l = BitVec.ofNat 16 (256 * h.toNat + l.toNat) := by
  apply BitVec.eq_of_toNat_eq
  have := h.isLt
  have := l.isLt
  rw [w16_toNat, BitVec.toNat_ofNat, Nat.mod_eq_of_lt (by omega)]
  omega

theorem hi_toNat (w : Word) : (hi w).toNat = w.toNat / 256 := by
  have := w.isLt
  rw [hi_eq, BitVec.toNat_ofNat, Nat.mod_eq_of_lt (by omega)]

theorem lo_toNat (w : Word) : (lo w).toNat = w.toNat % 256 := by
  rw [lo_eq, BitVec.toNat_ofNat, Nat.mod_eq_of_lt (by omega)]

theorem w16_hi_lo (w : Word) : w16 (hi w) (lo w) = w := by
  apply BitVec.eq_of_toNat_eq
  rw [w16_toNat, hi_toNat, lo_toNat]
  omega

theorem hi_ne_iff (u w : Word) : (hi u != hi w) = true ↔ u.toNat / 256 ≠ w.toNat / 256 := by
  rw [bne_iff_ne, ne_eq, ← BitVec.toNat_inj, hi_toNat, hi_toNat]

/-- The reduction of a nametable address (20_memory.md R113) as arithmetic. -/
theorem and_2FFF {n : Nat} (h : n < 0x4000) : n &&& 0x2FFF = n / 0x2000 * 0x2000 + n % 0x1000 := by
  have hq : n / 0x2000 * 0x2000 + n % 0x1000 = 2 ^ 13 * (n / 2 ^ 13) ||| n % 2 ^ 12 := by
    rw [← Nat.two_pow_add_eq_or_of_lt (Nat.lt_of_lt_of_le (Nat.mod_lt _ (by norm_num)) (by norm_num)), Nat.mul_comm]
    rfl
  rw [hq]
  apply Nat.eq_of_testBit_eq
  intro i
  rw [Nat.testBit_and, Nat.testBit_or, Nat.testBit_two_pow_mul, Nat.testBit_div_two_pow, Nat.testBit_mod_two_pow]
  by_cases hi : i < 14
  · have hd : ∀ i < 14, Nat.testBit 0x2FFF i = (decide (i < 12) || decide (i = 13)) := by decide
    rw [hd i hi]
    by_cases h12 : i < 12
    · simp [h12, show ¬ 13 ≤ i by omega]
    · have : i = 12 ∨ i = 13 := by omega
      rcases this with rfl | rfl <;> simp
  · have : n.testBit i = false :=
      Nat.testBit_lt_two_pow (Nat.lt_of_lt_of_le h (Nat.pow_le_pow_right (n := 2) (i := 14) (by norm_num) (by omega)))
    simp [this, show i - 13 + 13 = i by omega]

end Sys2Proof.Machine
end

