-- ==== Sys2Proof/Tests/Slice0.lean ====
section
/-! SUPPORT. The model's own tests: the well-formedness checks, one decoded word per constructor, vectors of 95_test_vectors.md (one
step each), and for every statement with hypotheses a theorem showing what meets them. -/

namespace Sys2Proof.Tests

open Sys2Proof Sys2Proof.Machine

/-- The start state of 95_test_vectors.md section 0: NMI vector 0x9000, reset vector 0x8000, PC 0x0600, SP 0xFF, P 0x00, and
sprite oracles that never set their bits. -/
def start : State := { State.reset with
  prg := [(0x3FFB, 0x90), (0x3FFD, 0x80)]
  pc := 0x0600
  sp := 0xFF
  params := { Params.default with sprite0Source := .never, overflowSource := .never } }

/-- The state an outcome holds; of a fault, the state it leaves. -/
def ended : Host.Outcome State Fault Refusal → State
  | .next t => t
  | .fault (.stopped _ t) => t
  | .refused _ => State.reset

/-- One step of `s` with `bytes` placed at its PC. -/
def after (bytes : List Byte) (s : State) : State := ended (step (placeBytes s.pc bytes s))

/-- Every policy at the value that is not its default. -/
def lenient : State := { start with params := { start.params with
  jamPolicy := .nop
  unstableStore := .any
  woRead := .any
  statusWrite := .ignore
  chrWrite := .ignore
  sharedW := true
  statusLowBits := .any } }

/-! ## Well-formedness -/

/-- One ill-formed instruction for each check of `Instr.wellFormed`: a mode or an opcode byte without a row in R156. -/
theorem test_ill_formed_is_refused :
    (∀ i ∈ [Instr.lda .acc, .adc (.zpY 0x10), .sbc .acc, .and (.zpY 0), .ora (.zpY 0), .eor .acc, .cmp (.zpY 0), .sta (.imm 0x01),
      .slo (.imm 0), .rla .acc, .sre (.zpY 0), .rra (.imm 0), .dcp .acc, .isb (.imm 0), .inc (.absY 0x0200), .dec .acc],
      Instr.wellFormed i = false) ∧
    (∀ i ∈ [Instr.asl (.imm 0x01), .lsr (.absY 0), .rol (.indX 0), .ror (.indY 0), .ldx (.zpX 0x10), .ldy (.zpY 0x10), .stx (.zpX 0x10),
      .sty (.zpY 0x10), .cpx (.zpX 0x10), .cpy (.absX 0), .bit (.imm 0x01), .sax (.imm 0), .lax (.imm 0), .ahx (.abs 0x0200)],
      Instr.wellFormed i = false) ∧
    (∀ i ∈ [Instr.anc 0x4B 0x00, .nopImmediate 0x83 0x00, .nopImplied 0xEA, .nopMemory 0x04 (.abs 0x0004), .nopMemory 0x1C (.zp 0x04),
      .nopMemory 0xEA .acc, .jam 0x00], Instr.wellFormed i = false) := by decide

/-- An ill-formed operand has no address: storing to an immediate ends in the fault of 40_addressing.md R172. -/
theorem test_ill_formed_store_faults :
    exec (.sta (.imm 0x01)) start = .fault (faultAt (.invalidAddressingModeUse .immediate) start) := rfl

/-! ## Decoding -/

/-- Words written out bit by bit from the encodings of file 41 and 30_encoding.md R153 and R156. -/
theorem test_decode_load_store_transfer :
    decode [0b10100101, 0b10001101] = .ok (.lda (.zp 0x8D), []) ∧
    decode [0b10111110, 0b10010100, 0b00010010] = .ok (.ldx (.absY 0x1294), []) ∧
    decode [0b10101100, 0b10011011, 0b00010010] = .ok (.ldy (.abs 0x129B), []) ∧
    decode [0b10010001, 0b10100010] = .ok (.sta (.indY 0xA2), []) ∧
    decode [0b10001110, 0b10101001, 0b00010010] = .ok (.stx (.abs 0x12A9), []) ∧
    decode [0b10001100, 0b10110000, 0b00010010] = .ok (.sty (.abs 0x12B0), []) ∧
    decode [0b10101010] = .ok (.tax, []) ∧
    decode [0b10101000] = .ok (.tay, []) ∧
    decode [0b10001010] = .ok (.txa, []) ∧
    decode [0b10011000] = .ok (.tya, []) ∧
    decode [0b10111010] = .ok (.tsx, []) ∧
    decode [0b10011010] = .ok (.txs, []) :=
  ⟨rfl, rfl, rfl, rfl, rfl, rfl, rfl, rfl, rfl, rfl, rfl, rfl⟩

/-- Words written out bit by bit from the encodings of file 42 and 30_encoding.md R153 and R156. -/
theorem test_decode_arithmetic_logic :
    decode [0b01110101, 0b11100001] = .ok (.adc (.zpX 0xE1), []) ∧
    decode [0b11100001, 0b11101000] = .ok (.sbc (.indX 0xE8), []) ∧
    decode [0b00101101, 0b11101111, 0b00010010] = .ok (.and (.abs 0x12EF), []) ∧
    decode [0b00011001, 0b11110110, 0b00010010] = .ok (.ora (.absY 0x12F6), []) ∧
    decode [0b01000101, 0b11111101] = .ok (.eor (.zp 0xFD), []) ∧
    decode [0b11010001, 0b00000100] = .ok (.cmp (.indY 0x04), []) ∧
    decode [0b11100100, 0b00001011] = .ok (.cpx (.zp 0x0B), []) ∧
    decode [0b11000100, 0b00010010] = .ok (.cpy (.zp 0x12), []) ∧
    decode [0b00101100, 0b00011001, 0b00010010] = .ok (.bit (.abs 0x1219), []) ∧
    decode [0b11100110, 0b00100000] = .ok (.inc (.zp 0x20), []) ∧
    decode [0b11011110, 0b00100111, 0b00010010] = .ok (.dec (.absX 0x1227), []) ∧
    decode [0b11101000] = .ok (.inx, []) ∧
    decode [0b11001000] = .ok (.iny, []) ∧
    decode [0b11001010] = .ok (.dex, []) ∧
    decode [0b10001000] = .ok (.dey, []) :=
  ⟨rfl, rfl, rfl, rfl, rfl, rfl, rfl, rfl, rfl, rfl, rfl, rfl, rfl, rfl, rfl⟩

/-- Words written out bit by bit from the encodings of file 43 and 30_encoding.md R153 and R156. -/
theorem test_decode_shift_rotate :
    decode [0b00001110, 0b01001010, 0b00010010] = .ok (.asl (.abs 0x124A), []) ∧
    decode [0b01000110, 0b01010001] = .ok (.lsr (.zp 0x51), []) ∧
    decode [0b00110110, 0b01011000] = .ok (.rol (.zpX 0x58), []) ∧
    decode [0b01101010] = .ok (.ror .acc, []) :=
  ⟨rfl, rfl, rfl, rfl⟩

/-- Words written out bit by bit from the encodings of file 44 and 30_encoding.md R153 and R156. -/
theorem test_decode_control_flow :
    decode [0b10010000, 0b01100110] = .ok (.bcc 0x66, []) ∧
    decode [0b10110000, 0b01101101] = .ok (.bcs 0x6D, []) ∧
    decode [0b11110000, 0b01110100] = .ok (.beq 0x74, []) ∧
    decode [0b11010000, 0b01111011] = .ok (.bne 0x7B, []) ∧
    decode [0b00110000, 0b10000010] = .ok (.bmi 0x82, []) ∧
    decode [0b00010000, 0b10001001] = .ok (.bpl 0x89, []) ∧
    decode [0b01010000, 0b10010000] = .ok (.bvc 0x90, []) ∧
    decode [0b01110000, 0b10010111] = .ok (.bvs 0x97, []) ∧
    decode [0b01001100, 0b10011110, 0b00010010] = .ok (.jmp 0x129E, []) ∧
    decode [0b01101100, 0b10100101, 0b00010010] = .ok (.jmpInd 0x12A5, []) ∧
    decode [0b00100000, 0b10101100, 0b00010010] = .ok (.jsr 0x12AC, []) ∧
    decode [0b01100000] = .ok (.rts, []) ∧
    decode [0b01000000] = .ok (.rti, []) ∧
    decode [0b00000000] = .ok (.brk, []) :=
  ⟨rfl, rfl, rfl, rfl, rfl, rfl, rfl, rfl, rfl, rfl, rfl, rfl, rfl, rfl⟩

/-- Words written out bit by bit from the encodings of file 45 and 30_encoding.md R153 and R156. -/
theorem test_decode_stack_flags_misc :
    decode [0b01001000] = .ok (.pha, []) ∧
    decode [0b00001000] = .ok (.php, []) ∧
    decode [0b01101000] = .ok (.pla, []) ∧
    decode [0b00101000] = .ok (.plp, []) ∧
    decode [0b00011000] = .ok (.clc, []) ∧
    decode [0b11011000] = .ok (.cld, []) ∧
    decode [0b01011000] = .ok (.cli, []) ∧
    decode [0b10111000] = .ok (.clv, []) ∧
    decode [0b00111000] = .ok (.sec, []) ∧
    decode [0b11111000] = .ok (.sed, []) ∧
    decode [0b01111000] = .ok (.sei, []) ∧
    decode [0b11101010] = .ok (.nop, []) :=
  ⟨rfl, rfl, rfl, rfl, rfl, rfl, rfl, rfl, rfl, rfl, rfl, rfl⟩

/-- Words written out bit by bit from the encodings of file 46 and 30_encoding.md R153 and R156. -/
theorem test_decode_undocumented_with_memory :
    decode [0b00010111, 0b00011100] = .ok (.slo (.zpX 0x1C), []) ∧
    decode [0b00100011, 0b00100011] = .ok (.rla (.indX 0x23), []) ∧
    decode [0b01010011, 0b00101010] = .ok (.sre (.indY 0x2A), []) ∧
    decode [0b01111111, 0b00110001, 0b00010010] = .ok (.rra (.absX 0x1231), []) ∧
    decode [0b10000011, 0b00111000] = .ok (.sax (.indX 0x38), []) ∧
    decode [0b10100111, 0b00111111] = .ok (.lax (.zp 0x3F), []) ∧
    decode [0b11000111, 0b01000110] = .ok (.dcp (.zp 0x46), []) ∧
    decode [0b11110111, 0b01001101] = .ok (.isb (.zpX 0x4D), []) :=
  ⟨rfl, rfl, rfl, rfl, rfl, rfl, rfl, rfl⟩

/-- Words written out bit by bit from the encodings of file 46 and 30_encoding.md R153 and R156. -/
theorem test_decode_undocumented_immediate :
    decode [0b00001011, 0b01010100] = .ok (.anc 0x0B 0x54, []) ∧
    decode [0b01001011, 0b01011011] = .ok (.alr 0x5B, []) ∧
    decode [0b01101011, 0b01100010] = .ok (.arr 0x62, []) ∧
    decode [0b11001011, 0b01101001] = .ok (.axs 0x69, []) ∧
    decode [0b11101011, 0b01110000] = .ok (.sbcEB 0x70, []) ∧
    decode [0b10111011, 0b01110111, 0b00010010] = .ok (.las 0x1277, []) ∧
    decode [0b10001011, 0b01111110] = .ok (.xaa 0x7E, []) ∧
    decode [0b10101011, 0b10000101] = .ok (.lxa 0x85, []) :=
  ⟨rfl, rfl, rfl, rfl, rfl, rfl, rfl, rfl⟩

/-- Words written out bit by bit from the encodings of file 46 and 30_encoding.md R153 and R156. -/
theorem test_decode_undocumented_unstable_and_nop :
    decode [0b10010011, 0b10001100] = .ok (.ahx (.indY 0x8C), []) ∧
    decode [0b10011110, 0b10010011, 0b00010010] = .ok (.shx 0x1293, []) ∧
    decode [0b10011100, 0b10011010, 0b00010010] = .ok (.shy 0x129A, []) ∧
    decode [0b10011011, 0b10100001, 0b00010010] = .ok (.tas 0x12A1, []) ∧
    decode [0b10001001, 0b10101000] = .ok (.nopImmediate 0x89 0xA8, []) ∧
    decode [0b01111100, 0b10101111, 0b00010010] = .ok (.nopMemory 0x7C (.absX 0x12AF), []) ∧
    decode [0b11011010] = .ok (.nopImplied 0xDA, []) ∧
    decode [0b00010010] = .ok (.jam 0x12, []) :=
  ⟨rfl, rfl, rfl, rfl, rfl, rfl, rfl, rfl⟩

/-! ## One step of each instruction -/

/-- 95_test_vectors.md V-LS3 (R200). -/
theorem test_lda_indexed_page_cross_and_mirror :
    let t := after [0xBD, 0xF0, 0x12] { start with x := 0x20, ram := [(0x310, 0x7E)] }
    t.a = 0x7E ∧ t.pc = 0x0603 ∧ t.p.toByte = 0x00 ∧ t.busCycles = 5 := by decide

/-- 95_test_vectors.md V-LS6 (R200). -/
theorem test_lda_indirect_x :
    let t := after [0xA1, 0x20] { start with x := 0x04, ram := [(0x24, 0x74), (0x25, 0x02), (0x274, 0xC3)] }
    t.a = 0xC3 ∧ t.p.toByte = 0x80 ∧ t.pc = 0x0602 ∧ t.busCycles = 6 := by decide

/-- 95_test_vectors.md V-LS9 (R201). -/
theorem test_ldx_zero_page_y_wraps :
    let t := after [0xB6, 0xF0] { start with y := 0x20 }
    t.p.toByte = 0x02 ∧ t.pc = 0x0602 ∧ t.busCycles = 4 := by decide

/-- 95_test_vectors.md V-LS10 (R201). -/
theorem test_ldx_absolute_y :
    let t := after [0xBE, 0xFF, 0x00] { start with y := 0x01, ram := [(0x100, 0x09)] }
    t.x = 0x09 ∧ t.pc = 0x0603 ∧ t.p.toByte = 0x00 ∧ t.busCycles = 5 := by decide

/-- 95_test_vectors.md V-LS11 (R202). -/
theorem test_ldy_absolute_x_from_prg :
    let t := after [0xBC, 0x00, 0x80] { start with x := 0x05, prg := [(0x5, 0xFE), (0x3FFB, 0x90), (0x3FFD, 0x80)] }
    t.y = 0xFE ∧ t.p.toByte = 0x80 ∧ t.pc = 0x0603 ∧ t.busCycles = 4 := by decide

/-- 95_test_vectors.md V-LS13 (R203). -/
theorem test_sta_takes_no_page_cross_cycle :
    let t := after [0x9D, 0xF0, 0x12] { start with a := 0x42, x := 0x20 }
    t.pc = 0x0603 ∧ t.ram.read 0x310 = 0x42 ∧ t.p.toByte = 0x00 ∧ t.busCycles = 5 := by decide

/-- 95_test_vectors.md V-LS14 (R203). -/
theorem test_sta_to_rom_faults :
    let t := after [0x8D, 0x00, 0x80] { start with a := 0x42 }
    t.pc = 0x0603 ∧ t.cpuRun = .faulted ⟨.romWriteAttempt .cpu 0x8000 0x42, 0x0600, some 0x8D⟩ ∧ t.p.toByte = 0x00 := by decide

/-- 95_test_vectors.md V-LS15 (R204). -/
theorem test_stx_zero_page_y_wraps :
    let t := after [0x96, 0xFF] { start with x := 0x07, y := 0x02 }
    t.pc = 0x0602 ∧ t.ram.read 0x1 = 0x07 ∧ t.p.toByte = 0x00 ∧ t.busCycles = 4 := by decide

/-- 95_test_vectors.md V-LS16 (R205). -/
theorem test_sty_through_a_mirror :
    let t := after [0x8C, 0x01, 0x08] { start with y := 0x09 }
    t.pc = 0x0603 ∧ t.ram.read 0x1 = 0x09 ∧ t.p.toByte = 0x00 ∧ t.busCycles = 4 := by decide

/-- 95_test_vectors.md V-LS17 (R206). -/
theorem test_tax_negative :
    let t := after [0xAA] { start with a := 0x90 }
    t.x = 0x90 ∧ t.p.toByte = 0x80 ∧ t.pc = 0x0601 ∧ t.busCycles = 2 := by decide

/-- 95_test_vectors.md V-LS18 (R207). -/
theorem test_tay_zero :
    let t := after [0xA8] { start with a := 0x00 }
    t.p.toByte = 0x02 ∧ t.pc = 0x0601 ∧ t.busCycles = 2 := by decide

/-- 95_test_vectors.md V-LS19 (R208). -/
theorem test_txa_clears_flags :
    let t := after [0x8A] { start with x := 0x01, p := Flags.ofByte 0x82 }
    t.a = 0x01 ∧ t.p.toByte = 0x00 ∧ t.pc = 0x0601 ∧ t.busCycles = 2 := by decide

/-- 95_test_vectors.md V-LS20 (R209). -/
theorem test_tya_negative :
    let t := after [0x98] { start with y := 0xFF }
    t.a = 0xFF ∧ t.p.toByte = 0x80 ∧ t.pc = 0x0601 ∧ t.busCycles = 2 := by decide

/-- 95_test_vectors.md V-LS21 (R210). -/
theorem test_tsx_negative :
    let t := after [0xBA] { start with sp := 0xFD }
    t.x = 0xFD ∧ t.p.toByte = 0x80 ∧ t.pc = 0x0601 ∧ t.busCycles = 2 := by decide

/-- 95_test_vectors.md V-LS22 (R211). -/
theorem test_txs_writes_no_flag :
    let t := after [0x9A] { start with x := 0x00, p := Flags.ofByte 0x80 }
    t.sp = 0x00 ∧ t.pc = 0x0601 ∧ t.p.toByte = 0x80 ∧ t.busCycles = 2 := by decide

/-- 95_test_vectors.md V-AL3 (R234, R231). -/
theorem test_adc_overflow :
    let t := after [0x69, 0x7F] { start with a := 0x01 }
    t.a = 0x80 ∧ t.p.toByte = 0xC0 ∧ t.pc = 0x0602 ∧ t.busCycles = 2 := by decide

/-- 95_test_vectors.md V-AL5 (R234, R231). -/
theorem test_adc_carry_in_and_out :
    let t := after [0x69, 0xFF] { start with a := 0xFF, p := Flags.ofByte 0x01 }
    t.p.toByte = 0x81 ∧ t.pc = 0x0602 ∧ t.busCycles = 2 := by decide

/-- 95_test_vectors.md V-AL9 (R235). -/
theorem test_sbc_with_borrow :
    let t := after [0xE9, 0x03] { start with a := 0x05, p := Flags.ofByte 0x00 }
    t.a = 0x01 ∧ t.p.toByte = 0x01 ∧ t.pc = 0x0602 ∧ t.busCycles = 2 := by decide

/-- 95_test_vectors.md V-AL10 (R235). -/
theorem test_sbc_overflow :
    let t := after [0xE9, 0x01] { start with a := 0x80, p := Flags.ofByte 0x01 }
    t.a = 0x7F ∧ t.p.toByte = 0x41 ∧ t.pc = 0x0602 ∧ t.busCycles = 2 := by decide

/-- 95_test_vectors.md V-AL14 (R236). -/
theorem test_and_zero :
    let t := after [0x29, 0x0F] { start with a := 0xF0 }
    t.a = 0x00 ∧ t.p.toByte = 0x02 ∧ t.pc = 0x0602 ∧ t.busCycles = 2 := by decide

/-- 95_test_vectors.md V-AL15 (R237). -/
theorem test_ora_negative :
    let t := after [0x09, 0x80] { start with a := 0x0F }
    t.a = 0x8F ∧ t.p.toByte = 0x80 ∧ t.pc = 0x0602 ∧ t.busCycles = 2 := by decide

/-- 95_test_vectors.md V-AL16 (R238). -/
theorem test_eor_zero :
    let t := after [0x49, 0xFF] { start with a := 0xFF }
    t.a = 0x00 ∧ t.p.toByte = 0x02 ∧ t.pc = 0x0602 ∧ t.busCycles = 2 := by decide

/-- 95_test_vectors.md V-AL17 (R239). -/
theorem test_cmp_below :
    let t := after [0xC9, 0x20] { start with a := 0x10 }
    t.p.toByte = 0x80 ∧ t.pc = 0x0602 ∧ t.busCycles = 2 := by decide

/-- 95_test_vectors.md V-AL18 (R239). -/
theorem test_cmp_wraps :
    let t := after [0xC9, 0xFF] { start with a := 0x01 }
    t.pc = 0x0602 ∧ t.p.toByte = 0x00 ∧ t.busCycles = 2 := by decide

/-- 95_test_vectors.md V-AL21 (R240). -/
theorem test_cpx_equal :
    let t := after [0xE0, 0x05] { start with x := 0x05 }
    t.p.toByte = 0x03 ∧ t.pc = 0x0602 ∧ t.busCycles = 2 := by decide

/-- 95_test_vectors.md V-AL22 (R241). -/
theorem test_cpy_below :
    let t := after [0xC0, 0x01] { start with y := 0x00 }
    t.p.toByte = 0x80 ∧ t.pc = 0x0602 ∧ t.busCycles = 2 := by decide

/-- 95_test_vectors.md V-AL23 (R242). -/
theorem test_bit_takes_n_and_v_from_memory :
    let t := after [0x24, 0x10] { start with a := 0x0F, ram := [(0x10, 0xC0)] }
    t.p.toByte = 0xC2 ∧ t.pc = 0x0602 ∧ t.busCycles = 3 := by decide

/-- 95_test_vectors.md V-AL24 (R242). -/
theorem test_bit_of_status_clears_vblank :
    let t := after [0x2C, 0x02, 0x20] { start with a := 0x80, ppu := { start.ppu with vblank := true } }
    t.p.toByte = 0x80 ∧ t.pc = 0x0603 ∧ t.ppu.statusByte 0 = 0x00 ∧ t.busCycles = 4 := by decide

/-- 95_test_vectors.md V-AL26 (R243). -/
theorem test_inc_wraps_to_zero :
    let t := after [0xFE, 0xFF, 0x07] { start with x := 0x01, ram := [(0x0, 0xFF)] }
    t.p.toByte = 0x02 ∧ t.pc = 0x0603 ∧ t.ram.read 0x0 = 0x00 ∧ t.busCycles = 7 := by decide

/-- 95_test_vectors.md V-AL27 (R244). -/
theorem test_dec_wraps_to_ff :
    let t := after [0xC6, 0x10] start
    t.p.toByte = 0x80 ∧ t.pc = 0x0602 ∧ t.ram.read 0x10 = 0xFF ∧ t.busCycles = 5 := by decide

/-- 95_test_vectors.md V-AL28 (R245). -/
theorem test_inx_wraps :
    let t := after [0xE8] { start with x := 0xFF }
    t.x = 0x00 ∧ t.p.toByte = 0x02 ∧ t.pc = 0x0601 ∧ t.busCycles = 2 := by decide

/-- 95_test_vectors.md V-AL29 (R246). -/
theorem test_iny_negative :
    let t := after [0xC8] { start with y := 0x7F }
    t.y = 0x80 ∧ t.p.toByte = 0x80 ∧ t.pc = 0x0601 ∧ t.busCycles = 2 := by decide

/-- 95_test_vectors.md V-AL30 (R247). -/
theorem test_dex_wraps :
    let t := after [0xCA] { start with x := 0x00 }
    t.x = 0xFF ∧ t.p.toByte = 0x80 ∧ t.pc = 0x0601 ∧ t.busCycles = 2 := by decide

/-- 95_test_vectors.md V-AL31 (R248). -/
theorem test_dey_zero :
    let t := after [0x88] { start with y := 0x01 }
    t.y = 0x00 ∧ t.p.toByte = 0x02 ∧ t.pc = 0x0601 ∧ t.busCycles = 2 := by decide

/-- 95_test_vectors.md V-SR2 (R281). -/
theorem test_asl_carry_and_zero :
    let t := after [0x0A] { start with a := 0x80 }
    t.a = 0x00 ∧ t.p.toByte = 0x03 ∧ t.pc = 0x0601 ∧ t.busCycles = 2 := by decide

/-- 95_test_vectors.md V-SR11 (R281, R285). -/
theorem test_asl_of_rom_faults :
    let t := after [0x0E, 0x00, 0x80] start
    t.pc = 0x0603 ∧ t.cpuRun = .faulted ⟨.romWriteAttempt .cpu 0x8000 0x00, 0x0600, some 0x0E⟩ ∧ t.p.toByte = 0x00 := by decide

/-- 95_test_vectors.md V-SR5 (R282). -/
theorem test_lsr_carry_and_zero :
    let t := after [0x4A] { start with a := 0x01, p := Flags.ofByte 0x80 }
    t.a = 0x00 ∧ t.p.toByte = 0x03 ∧ t.pc = 0x0601 ∧ t.busCycles = 2 := by decide

/-- 95_test_vectors.md V-SR6 (R283). -/
theorem test_rol_carry_in :
    let t := after [0x2A] { start with a := 0x40, p := Flags.ofByte 0x01 }
    t.a = 0x81 ∧ t.p.toByte = 0x80 ∧ t.pc = 0x0601 ∧ t.busCycles = 2 := by decide

/-- 95_test_vectors.md V-SR7 (R283). -/
theorem test_rol_carry_out :
    let t := after [0x2A] { start with a := 0x80, p := Flags.ofByte 0x00 }
    t.a = 0x00 ∧ t.p.toByte = 0x03 ∧ t.pc = 0x0601 ∧ t.busCycles = 2 := by decide

/-- 95_test_vectors.md V-SR8 (R284). -/
theorem test_ror_carry_in :
    let t := after [0x6A] { start with a := 0x02, p := Flags.ofByte 0x01 }
    t.a = 0x81 ∧ t.p.toByte = 0x80 ∧ t.pc = 0x0601 ∧ t.busCycles = 2 := by decide

/-- 95_test_vectors.md V-SR10 (R284). -/
theorem test_ror_memory_page_cross :
    let t := after [0x7E, 0xFF, 0x02] { start with x := 0x01, p := Flags.ofByte 0x01 }
    t.p.toByte = 0x80 ∧ t.pc = 0x0603 ∧ t.ram.read 0x300 = 0x80 ∧ t.busCycles = 7 := by decide

/-- 95_test_vectors.md V-CF1 (R301). -/
theorem test_bcc_taken :
    let t := after [0x90, 0x04] start
    t.pc = 0x0606 ∧ t.p.toByte = 0x00 ∧ t.busCycles = 3 := by decide

/-- 95_test_vectors.md V-CF2 (R302). -/
theorem test_bcs_not_taken :
    let t := after [0xB0, 0x04] start
    t.pc = 0x0602 ∧ t.p.toByte = 0x00 ∧ t.busCycles = 2 := by decide

/-- 95_test_vectors.md V-CF3 (R303). -/
theorem test_beq_backward_across_page :
    let t := after [0xF0, 0xFC] { start with p := Flags.ofByte 0x02, pc := 0x0610 }
    t.pc = 0x060E ∧ t.p.toByte = 0x02 ∧ t.busCycles = 3 := by decide

/-- 95_test_vectors.md V-CF4 (R304). -/
theorem test_bne_backward :
    let t := after [0xD0, 0xFB] { start with pc := 0x0605 }
    t.pc = 0x0602 ∧ t.p.toByte = 0x00 ∧ t.busCycles = 3 := by decide

/-- 95_test_vectors.md V-CF5 (R305). -/
theorem test_bmi_forward_across_page :
    let t := after [0x30, 0x7F] { start with p := Flags.ofByte 0x80, pc := 0x06F0 }
    t.pc = 0x0771 ∧ t.p.toByte = 0x80 ∧ t.busCycles = 4 := by decide

/-- 95_test_vectors.md V-CF6 (R306). -/
theorem test_bpl_backward_across_page :
    let t := after [0x10, 0x80] { start with p := Flags.ofByte 0x00 }
    t.pc = 0x0582 ∧ t.p.toByte = 0x00 ∧ t.busCycles = 4 := by decide

/-- 95_test_vectors.md V-CF7 (R307). -/
theorem test_bvc_offset_zero :
    let t := after [0x50, 0x00] start
    t.pc = 0x0602 ∧ t.p.toByte = 0x00 ∧ t.busCycles = 3 := by decide

/-- 95_test_vectors.md V-CF9 (R308). -/
theorem test_bvs_taken :
    let t := after [0x70, 0x10] { start with p := Flags.ofByte 0x40 }
    t.pc = 0x0612 ∧ t.p.toByte = 0x40 ∧ t.busCycles = 3 := by decide

/-- 95_test_vectors.md V-CF11 (R310). -/
theorem test_jmp_absolute :
    let t := after [0x4C, 0x00, 0x80] start
    t.pc = 0x8000 ∧ t.p.toByte = 0x00 ∧ t.busCycles = 3 := by decide

/-- 95_test_vectors.md V-CF12 (R311). -/
theorem test_jmp_indirect_page_wrap :
    let t := after [0x6C, 0xFF, 0x02] { start with ram := [(0x200, 0x40), (0x2FF, 0x80), (0x300, 0x50)] }
    t.pc = 0x4080 ∧ t.p.toByte = 0x00 ∧ t.busCycles = 5 := by decide

/-- 95_test_vectors.md V-CF15 (R312). -/
theorem test_jsr_stack_wraps :
    let t := after [0x20, 0x00, 0x07] { start with sp := 0x00 }
    t.sp = 0xFE ∧ t.pc = 0x0700 ∧ t.ram.read 0x100 = 0x06 ∧ t.ram.read 0x1FF = 0x02 ∧ t.p.toByte = 0x00 ∧
    t.busCycles = 6 := by decide

/-- 95_test_vectors.md V-CF17 (R313). -/
theorem test_rts_stack_wraps :
    let t := after [0x60] { start with sp := 0xFF, ram := [(0x100, 0xFF), (0x101, 0x7F)] }
    t.sp = 0x01 ∧ t.pc = 0x8000 ∧ t.p.toByte = 0x00 ∧ t.busCycles = 6 := by decide

/-- 95_test_vectors.md V-CF18 (R314). -/
theorem test_rti_sets_u_and_clears_b :
    let t := after [0x40] { start with sp := 0xFC, ram := [(0x1FD, 0xFF), (0x1FE, 0x34), (0x1FF, 0x12)] }
    t.sp = 0xFF ∧ t.p.toByte = 0xEF ∧ t.pc = 0x1234 ∧ t.busCycles = 6 := by decide

/-- 95_test_vectors.md V-CF20 (R330). -/
theorem test_brk_halts :
    let t := after [0x00, 0xEA] start
    t.pc = 0x0601 ∧ t.cpuRun = .halted ∧ t.p.toByte = 0x00 ∧ t.busCycles = 0 := by decide

/-- 95_test_vectors.md V-SF2 (R343). -/
theorem test_pha_stack_wraps :
    let t := after [0x48] { start with a := 0x5A, sp := 0x00 }
    t.sp = 0xFF ∧ t.pc = 0x0601 ∧ t.ram.read 0x100 = 0x5A ∧ t.p.toByte = 0x00 ∧ t.busCycles = 3 := by decide

/-- 95_test_vectors.md V-SF4 (R344). -/
theorem test_php_sets_b_and_u :
    let t := after [0x08] { start with p := Flags.ofByte 0xC3 }
    t.sp = 0xFE ∧ t.pc = 0x0601 ∧ t.ram.read 0x1FF = 0xF3 ∧ t.p.toByte = 0xC3 ∧ t.busCycles = 3 := by decide

/-- 95_test_vectors.md V-SF6 (R345). -/
theorem test_pla_stack_wraps :
    let t := after [0x68] { start with sp := 0xFF }
    t.sp = 0x00 ∧ t.p.toByte = 0x02 ∧ t.pc = 0x0601 ∧ t.busCycles = 4 := by decide

/-- 95_test_vectors.md V-SF7 (R346). -/
theorem test_plp_sets_u_and_clears_b :
    let t := after [0x28] { start with sp := 0xFE, ram := [(0x1FF, 0xFF)] }
    t.sp = 0xFF ∧ t.p.toByte = 0xEF ∧ t.pc = 0x0601 ∧ t.busCycles = 4 := by decide

/-- 95_test_vectors.md V-SF9 (R347). -/
theorem test_clc :
    let t := after [0x18] { start with p := Flags.ofByte 0x21 }
    t.p.toByte = 0x20 ∧ t.pc = 0x0601 ∧ t.busCycles = 2 := by decide

/-- 95_test_vectors.md V-SF10 (R348). -/
theorem test_cld :
    let t := after [0xD8] { start with p := Flags.ofByte 0x28 }
    t.p.toByte = 0x20 ∧ t.pc = 0x0601 ∧ t.busCycles = 2 := by decide

/-- 95_test_vectors.md V-SF11 (R349). -/
theorem test_cli :
    let t := after [0x58] { start with p := Flags.ofByte 0x24 }
    t.p.toByte = 0x20 ∧ t.pc = 0x0601 ∧ t.busCycles = 2 := by decide

/-- 95_test_vectors.md V-SF12 (R350). -/
theorem test_clv :
    let t := after [0xB8] { start with p := Flags.ofByte 0x60 }
    t.p.toByte = 0x20 ∧ t.pc = 0x0601 ∧ t.busCycles = 2 := by decide

/-- 95_test_vectors.md V-SF13 (R351). -/
theorem test_sec :
    let t := after [0x38] { start with p := Flags.ofByte 0x20 }
    t.p.toByte = 0x21 ∧ t.pc = 0x0601 ∧ t.busCycles = 2 := by decide

/-- 95_test_vectors.md V-SF14 (R352). -/
theorem test_sed :
    let t := after [0xF8] { start with p := Flags.ofByte 0x20 }
    t.p.toByte = 0x28 ∧ t.pc = 0x0601 ∧ t.busCycles = 2 := by decide

/-- 95_test_vectors.md V-SF15 (R353). -/
theorem test_sei :
    let t := after [0x78] { start with p := Flags.ofByte 0x20 }
    t.p.toByte = 0x24 ∧ t.pc = 0x0601 ∧ t.busCycles = 2 := by decide

/-- 95_test_vectors.md V-SF16 (R354). -/
theorem test_nop_keeps_flags :
    let t := after [0xEA] { start with p := Flags.ofByte 0xA5 }
    t.pc = 0x0601 ∧ t.p.toByte = 0xA5 ∧ t.busCycles = 2 := by decide

/-- 95_test_vectors.md V-UD1 (R371). -/
theorem test_slo :
    let t := after [0x07, 0x10] { start with a := 0x01, ram := [(0x10, 0x81)] }
    t.a = 0x03 ∧ t.p.toByte = 0x01 ∧ t.pc = 0x0602 ∧ t.ram.read 0x10 = 0x02 ∧ t.busCycles = 5 := by decide

/-- 95_test_vectors.md V-UD3 (R372). -/
theorem test_rla_carry_in :
    let t := after [0x27, 0x10] { start with a := 0xFF, p := Flags.ofByte 0x01, ram := [(0x10, 0x80)] }
    t.a = 0x01 ∧ t.pc = 0x0602 ∧ t.ram.read 0x10 = 0x01 ∧ t.p.toByte = 0x01 ∧ t.busCycles = 5 := by decide

/-- 95_test_vectors.md V-UD4 (R373). -/
theorem test_sre :
    let t := after [0x47, 0x10] { start with a := 0x01, ram := [(0x10, 0x03)] }
    t.a = 0x00 ∧ t.p.toByte = 0x03 ∧ t.pc = 0x0602 ∧ t.ram.read 0x10 = 0x01 ∧ t.busCycles = 5 := by decide

/-- 95_test_vectors.md V-UD5 (R374). -/
theorem test_rra_carry_in :
    let t := after [0x67, 0x10] { start with a := 0x10, p := Flags.ofByte 0x01, ram := [(0x10, 0x02)] }
    t.a = 0x91 ∧ t.p.toByte = 0x80 ∧ t.pc = 0x0602 ∧ t.ram.read 0x10 = 0x81 ∧ t.busCycles = 5 := by decide

/-- 95_test_vectors.md V-UD6 (R374). -/
theorem test_rra_adds_the_carry_it_shifts_out :
    let t := after [0x67, 0x10] { start with a := 0x10, p := Flags.ofByte 0x00, ram := [(0x10, 0x01)] }
    t.a = 0x11 ∧ t.pc = 0x0602 ∧ t.ram.read 0x10 = 0x00 ∧ t.p.toByte = 0x00 ∧ t.busCycles = 5 := by decide

/-- 95_test_vectors.md V-UD8 (R375). -/
theorem test_sax_zero_page_y_wraps :
    let t := after [0x97, 0xFF] { start with a := 0xFF, x := 0x0F, y := 0x02 }
    t.pc = 0x0602 ∧ t.ram.read 0x1 = 0x0F ∧ t.p.toByte = 0x00 ∧ t.busCycles = 4 := by decide

/-- 95_test_vectors.md V-UD10 (R376). -/
theorem test_lax_page_cross :
    let t := after [0xBF, 0xF0, 0x06] { start with y := 0x20, p := Flags.ofByte 0x80 }
    t.p.toByte = 0x02 ∧ t.pc = 0x0603 ∧ t.busCycles = 5 := by decide

/-- 95_test_vectors.md V-UD12 (R377). -/
theorem test_dcp_wraps :
    let t := after [0xC7, 0x10] { start with a := 0xFF }
    t.p.toByte = 0x03 ∧ t.pc = 0x0602 ∧ t.ram.read 0x10 = 0xFF ∧ t.busCycles = 5 := by decide

/-- 95_test_vectors.md V-UD13 (R378). -/
theorem test_isb :
    let t := after [0xE7, 0x10] { start with a := 0x10, p := Flags.ofByte 0x01, ram := [(0x10, 0x04)] }
    t.a = 0x0B ∧ t.pc = 0x0602 ∧ t.ram.read 0x10 = 0x05 ∧ t.p.toByte = 0x01 ∧ t.busCycles = 5 := by decide

/-- 95_test_vectors.md V-UD14 (R378). -/
theorem test_isb_wraps :
    let t := after [0xE7, 0x10] { start with a := 0x10, p := Flags.ofByte 0x00, ram := [(0x10, 0xFF)] }
    t.a = 0x0F ∧ t.p.toByte = 0x01 ∧ t.pc = 0x0602 ∧ t.ram.read 0x10 = 0x00 ∧ t.busCycles = 5 := by decide

/-- 95_test_vectors.md V-UD15 (R379). -/
theorem test_anc_0B :
    let t := after [0x0B, 0x80] { start with a := 0xFF }
    t.a = 0x80 ∧ t.p.toByte = 0x81 ∧ t.pc = 0x0602 ∧ t.busCycles = 2 := by decide

/-- 95_test_vectors.md V-UD16 (R379). -/
theorem test_anc_2B :
    let t := after [0x2B, 0xFF] { start with a := 0x7F, p := Flags.ofByte 0x01 }
    t.p.toByte = 0x00 ∧ t.pc = 0x0602 ∧ t.busCycles = 2 := by decide

/-- 95_test_vectors.md V-UD17 (R380). -/
theorem test_alr :
    let t := after [0x4B, 0x03] { start with a := 0xFF }
    t.a = 0x01 ∧ t.p.toByte = 0x01 ∧ t.pc = 0x0602 ∧ t.busCycles = 2 := by decide

/-- 95_test_vectors.md V-UD18 (R381). -/
theorem test_arr_carry_and_overflow :
    let t := after [0x6B, 0xFF] { start with a := 0x80, p := Flags.ofByte 0x00 }
    t.a = 0x40 ∧ t.p.toByte = 0x41 ∧ t.pc = 0x0602 ∧ t.busCycles = 2 := by decide

/-- 95_test_vectors.md V-UD19 (R381). -/
theorem test_arr_carry_in :
    let t := after [0x6B, 0xFF] { start with a := 0xFF, p := Flags.ofByte 0x01 }
    t.p.toByte = 0x81 ∧ t.pc = 0x0602 ∧ t.busCycles = 2 := by decide

/-- 95_test_vectors.md V-UD21 (R382). -/
theorem test_axs :
    let t := after [0xCB, 0x01] { start with a := 0xFF, x := 0x0F }
    t.x = 0x0E ∧ t.p.toByte = 0x01 ∧ t.pc = 0x0602 ∧ t.busCycles = 2 := by decide

/-- 95_test_vectors.md V-UD22 (R382). -/
theorem test_axs_below :
    let t := after [0xCB, 0x01] { start with a := 0x00, x := 0xFF }
    t.p.toByte = 0x80 ∧ t.pc = 0x0602 ∧ t.busCycles = 2 := by decide

/-- 95_test_vectors.md V-UD23 (R383). -/
theorem test_sbcEB :
    let t := after [0xEB, 0x03] { start with a := 0x05, p := Flags.ofByte 0x01 }
    t.a = 0x02 ∧ t.pc = 0x0602 ∧ t.p.toByte = 0x01 ∧ t.busCycles = 2 := by decide

/-- 95_test_vectors.md V-UD24 (R384). -/
theorem test_las :
    let t := after [0xBB, 0x00, 0x03] { start with sp := 0x3F, y := 0x00, ram := [(0x300, 0xF0)] }
    t.a = 0x30 ∧ t.x = 0x30 ∧ t.sp = 0x30 ∧ t.pc = 0x0603 ∧ t.p.toByte = 0x00 ∧ t.busCycles = 4 := by decide

/-- 95_test_vectors.md V-UD26 (R385). -/
theorem test_xaa_magic :
    let t := after [0x8B, 0xFF] { start with a := 0x12, x := 0x00, params := { start.params with aneMagic := 238 } }
    t.a = 0x00 ∧ t.p.toByte = 0x02 ∧ t.pc = 0x0602 ∧ t.busCycles = 2 := by decide

/-- 95_test_vectors.md V-UD28 (R386). -/
theorem test_lxa_magic :
    let t := after [0xAB, 0xFF] { start with a := 0x01, params := { start.params with lxaMagic := 0 } }
    t.x = 0x01 ∧ t.pc = 0x0602 ∧ t.p.toByte = 0x00 ∧ t.busCycles = 2 := by decide

/-- 95_test_vectors.md V-UD29 (R387). -/
theorem test_ahx_absolute_y :
    let t := after [0x9F, 0x00, 0x02] { start with a := 0xFF, x := 0xFF, y := 0x10 }
    t.pc = 0x0603 ∧ t.ram.read 0x210 = 0x03 ∧ t.p.toByte = 0x00 ∧ t.busCycles = 5 := by decide

/-- 95_test_vectors.md V-UD30 (R387). -/
theorem test_ahx_indirect_y :
    let t := after [0x93, 0x40] { start with a := 0xFF, x := 0xFF, y := 0x05, ram := [(0x41, 0x03)] }
    t.pc = 0x0602 ∧ t.ram.read 0x305 = 0x04 ∧ t.p.toByte = 0x00 ∧ t.busCycles = 6 := by decide

/-- 95_test_vectors.md V-UD32 (R388). -/
theorem test_shx_page_cross_keeps_the_address :
    let t := after [0x9E, 0xFF, 0x02] { start with x := 0xFF, y := 0x01 }
    t.pc = 0x0603 ∧ t.ram.read 0x300 = 0x03 ∧ t.p.toByte = 0x00 ∧ t.busCycles = 5 := by decide

/-- 95_test_vectors.md V-UD33 (R389). -/
theorem test_shy :
    let t := after [0x9C, 0x00, 0x05] { start with y := 0xFF, x := 0x02 }
    t.pc = 0x0603 ∧ t.ram.read 0x502 = 0x06 ∧ t.p.toByte = 0x00 ∧ t.busCycles = 5 := by decide

/-- 95_test_vectors.md V-UD34 (R390). -/
theorem test_tas :
    let t := after [0x9B, 0x00, 0x02] { start with a := 0xF3, x := 0x3F, y := 0x00 }
    t.sp = 0x33 ∧ t.pc = 0x0603 ∧ t.ram.read 0x200 = 0x03 ∧ t.p.toByte = 0x00 ∧ t.busCycles = 5 := by decide

/-- 95_test_vectors.md V-UD35 (R391). -/
theorem test_nopImmediate :
    let t := after [0x80, 0xFF] start
    t.pc = 0x0602 ∧ t.p.toByte = 0x00 ∧ t.busCycles = 2 := by decide

/-- 95_test_vectors.md V-UD36 (R392). -/
theorem test_nopMemory_page_cross :
    let t := after [0x1C, 0xF0, 0x12] { start with x := 0x20 }
    t.pc = 0x0603 ∧ t.p.toByte = 0x00 ∧ t.busCycles = 5 := by decide

/-- 95_test_vectors.md V-UD37 (R392). -/
theorem test_nopMemory_reads_status :
    let t := after [0x0C, 0x02, 0x20] { start with ppu := { start.ppu with vblank := true, addrW := true } }
    t.pc = 0x0603 ∧ t.ppu.statusByte 0 = 0x00 ∧ t.ppu.addrW = false ∧ t.p.toByte = 0x00 ∧ t.busCycles = 4 := by decide

/-- 95_test_vectors.md V-UD39 (R393). -/
theorem test_nopImplied_keeps_flags :
    let t := after [0x1A] { start with p := Flags.ofByte 0x83 }
    t.pc = 0x0601 ∧ t.p.toByte = 0x83 ∧ t.busCycles = 2 := by decide

/-- 95_test_vectors.md V-UD40 (R420). -/
theorem test_jam_jams :
    let t := after [0x02, 0xEA] start
    t.pc = 0x0601 ∧ t.cpuRun = .jammed ∧ t.p.toByte = 0x00 := by decide

/-- 95_test_vectors.md V-UD41 (R420). -/
theorem test_jam_as_nop :
    let t := after [0x02, 0xEA] { start with params := { start.params with jamPolicy := .nop } }
    t.pc = 0x0601 ∧ t.p.toByte = 0x00 ∧ t.busCycles = 2 := by decide

/-- 95_test_vectors.md V-MEM2 (R203, R83). -/
theorem test_ram_mirror_top :
    let t := after [0x8D, 0xFF, 0x1F] { start with a := 0x99 }
    t.pc = 0x0603 ∧ t.ram.read 0x7FF = 0x99 ∧ t.p.toByte = 0x00 ∧ t.busCycles = 4 := by decide

/-- 95_test_vectors.md V-MEM12 (R200, R98). -/
theorem test_read_of_write_only_register_faults :
    let t := after [0xAD, 0x00, 0x20] start
    t.pc = 0x0603 ∧ t.cpuRun = .faulted ⟨.ppuWriteOnlyRead 0x2000, 0x0600, some 0xAD⟩ ∧ t.p.toByte = 0x00 := by decide

/-- 95_test_vectors.md V-MEM15 (R203, R84). -/
theorem test_register_mirror :
    let t := after [0x8D, 0x08, 0x3F] { start with a := 0x1E }
    t.pc = 0x0603 ∧ t.ppu.ctrl = 0x1E ∧ t.p.toByte = 0x00 ∧ t.busCycles = 4 := by decide

/-- 95_test_vectors.md V-PPU1 (R200, R481). -/
theorem test_status_read :
    let t := after [0xAD, 0x02, 0x20]
      { start with ppu := { start.ppu with vblank := true, spriteZero := true, overflow := true, addrW := true, scrollW := true } }
    t.a = 0xE0 ∧ t.p.toByte = 0x80 ∧ t.pc = 0x0603 ∧ t.ppu.statusByte 0 = 0x60 ∧ t.ppu.scrollW = false ∧ t.ppu.addrW = false ∧
    t.busCycles = 4 := by decide

/-- 95_test_vectors.md V-PPU4 (R203, R479). -/
theorem test_address_low_byte :
    let t := after [0x8D, 0x06, 0x20] { start with a := 0x05, ppu := { start.ppu with v := 0x2300, addrW := true } }
    t.pc = 0x0603 ∧ t.ppu.v = 0x2305 ∧ t.ppu.addrW = false ∧ t.p.toByte = 0x00 ∧ t.busCycles = 4 := by decide

/-- 95_test_vectors.md V-PPU8 (R203, R477). -/
theorem test_horizontal_mirroring :
    let t := after [0x8D, 0x07, 0x20] { start with a := 0x66, ppu := { start.ppu with v := 0x2B05, mirroring := .horizontal } }
    t.pc = 0x0603 ∧ t.ppu.v = 0x2B06 ∧ t.ppu.vram.read 0x705 = 0x66 ∧ t.p.toByte = 0x00 ∧ t.busCycles = 4 := by decide

/-- 95_test_vectors.md V-PPU11 (R203, R483). -/
theorem test_pointer_wraps :
    let t := after [0x8D, 0x07, 0x20] { start with a := 0x01, ppu := { start.ppu with v := 0x3FFF } }
    t.pc = 0x0603 ∧ t.ppu.v = 0x0000 ∧ t.ppu.palette.read 0x1F = 0x01 ∧ t.p.toByte = 0x00 ∧ t.busCycles = 4 := by decide

/-- 95_test_vectors.md V-PPU12 (R203, R477). -/
theorem test_palette_alias_write :
    let t := after [0x8D, 0x07, 0x20] { start with a := 0x2A, ppu := { start.ppu with v := 0x3F10 } }
    t.pc = 0x0603 ∧ t.ppu.v = 0x3F11 ∧ t.ppu.palette.read 0x0 = 0x2A ∧ t.p.toByte = 0x00 ∧ t.busCycles = 4 := by decide

/-- 95_test_vectors.md V-PPU14 (R203, R118). -/
theorem test_chr_write_faults :
    let t := after [0x8D, 0x07, 0x20] { start with a := 0x01, ppu := { start.ppu with v := 0x0000 } }
    t.pc = 0x0603 ∧ t.cpuRun = .faulted ⟨.romWriteAttempt .chr 0x00 0x01, 0x0600, some 0x8D⟩ ∧ t.p.toByte = 0x00 := by decide

/-- 95_test_vectors.md V-PPU16 (R200, R478). -/
theorem test_buffered_read :
    let t := after [0xAD, 0x07, 0x20]
      { start with ppu := { start.ppu with v := 0x2305, readBuf := 0x11, vram := [(0x305, 0x66)] } }
    t.a = 0x11 ∧ t.pc = 0x0603 ∧ t.ppu.v = 0x2306 ∧ t.ppu.readBuf = 0x66 ∧ t.p.toByte = 0x00 ∧ t.busCycles = 4 := by decide

/-- 95_test_vectors.md V-PPU18 (R200, R478). -/
theorem test_palette_read_keeps_the_buffer :
    let t := after [0xAD, 0x07, 0x20]
      { start with ppu := { start.ppu with v := 0x3F10, readBuf := 0x11, palette := [(0x0, 0x0F)] } }
    t.a = 0x0F ∧ t.pc = 0x0603 ∧ t.ppu.v = 0x3F11 ∧ t.p.toByte = 0x00 ∧ t.busCycles = 4 := by decide

/-- 95_test_vectors.md V-PPU20 (R203, R480). -/
theorem test_control_write_latches_nmi :
    let t := after [0x8D, 0x00, 0x20] { start with a := 0x80, ppu := { start.ppu with vblank := true } }
    t.pc = 0x0603 ∧ t.ppu.ctrl = 0x80 ∧ t.ppu.nmiPending = true ∧ t.p.toByte = 0x00 ∧ t.busCycles = 4 := by decide

/-- 95_test_vectors.md V-PPU25 (R203, R482). -/
theorem test_shared_toggle :
    let t := after [0x8D, 0x05, 0x20]
      { start with a := 0x34, ppu := { start.ppu with addrW := true }, params := { start.params with sharedW := true } }
    t.pc = 0x0603 ∧ t.ppu.scrollY = 0x34 ∧ t.ppu.addrW = false ∧ t.p.toByte = 0x00 ∧ t.busCycles = 4 := by decide

/-- 95_test_vectors.md V-PPU28 (R203, R484). -/
theorem test_oam_cursor_wraps :
    let t := after [0x8D, 0x04, 0x20] { start with a := 0x77, ppu := { start.ppu with oamAddr := 0xFF } }
    t.pc = 0x0603 ∧ t.ppu.oamAddr = 0x00 ∧ t.ppu.oam.read 0xFF = 0x77 ∧ t.p.toByte = 0x00 ∧ t.busCycles = 4 := by decide

set_option maxRecDepth 20000 in
/-- 95_test_vectors.md V-INT1 (R354, R454). -/
theorem test_nmi_entry :
    let t := after [0xEA]
      { start with p := Flags.ofByte 0xC3, sp := 0xFF, prg := [(0x1000, 0xEA), (0x3FFB, 0x90), (0x3FFD, 0x80)], ppu := { start.ppu with nmiPending := true } }
    t.sp = 0xFC ∧ t.p.toByte = 0xC7 ∧ t.pc = 0x9001 ∧ t.ppu.nmiPending = false ∧ t.ppu.scanline = 0 ∧ t.ppu.dot = 27 ∧
    t.ram.read 0x1FD = 0xE3 ∧ t.ram.read 0x1FE = 0x00 ∧ t.ram.read 0x1FF = 0x06 ∧ t.busCycles = 9 := by decide

/-- 95_test_vectors.md V-INT4 (R354, R470). -/
theorem test_vblank_latches_nmi :
    let t := after [0xEA] { start with ppu := { start.ppu with scanline := 240, dot := 340, ctrl := 0x80, spriteZero := true } }
    t.pc = 0x0601 ∧ t.ppu.statusByte 0 = 0x80 ∧ t.ppu.nmiPending = true ∧ t.ppu.scanline = 241 ∧ t.ppu.dot = 5 ∧
    t.frameEvents = 1 ∧ t.p.toByte = 0x00 ∧ t.busCycles = 2 := by decide

/-- 95_test_vectors.md V-INT6 (R354, R471). -/
theorem test_frame_wrap_clears_status :
    let t := after [0xEA]
      { start with ppu := { start.ppu with scanline := 261, dot := 340, vblank := true, spriteZero := true, overflow := true, nmiPending := false } }
    t.pc = 0x0601 ∧ t.ppu.statusByte 0 = 0x00 ∧ t.ppu.scanline = 0 ∧ t.ppu.dot = 5 ∧ t.p.toByte = 0x00 ∧
    t.busCycles = 2 := by decide

/-! ## Time, DMA, reset and the host -/

set_option maxRecDepth 20000 in
/-- 95_test_vectors.md V-PPU30 (R490), by `exec`: 256 bytes with the cursor wrapping, and 513 cycles. -/
theorem test_oam_dma :
    let t := ended (exec (.sta (.abs 0x4014)) { start with
      a := 0x02
      ram := [(0x200, 0xAA), (0x2EF, 0xBB), (0x2F0, 0xCC), (0x2FF, 0xDD)]
      ppu := { start.ppu with oamAddr := 0x10 } })
    t.ppu.oam = [(0x00, 0xCC), (0x0F, 0xDD), (0x10, 0xAA), (0xFF, 0xBB)] ∧ t.ppu.oamAddr = 0x10 ∧ t.ctx.cyc = 513 := by
  decide

/-- 95_test_vectors.md V-PPU31 (R490): the first byte of page 0x20 faults. -/
theorem test_oam_dma_from_registers_faults :
    (after [0x8D, 0x14, 0x40] { start with a := 0x20 }).cpuRun
      = .faulted ⟨.ppuWriteOnlyRead 0x2000, 0x0600, some 0x8D⟩ := by decide

/-- 95_test_vectors.md V-RS4, V-RS6, V-RS5 (R530, R534): reset starts a Halted or Jammed CPU and keeps a Faulted one. -/
theorem test_reset :
    let t := hostReset { start with a := 0x42, cpuRun := .halted, ram := [(0x10, 0x42)], busCycles := 5 }
    t.cpuRun = .running ∧ t.pc = 0x8000 ∧ t.a = 0x00 ∧ t.ram.read 0x10 = 0x42 ∧ t.busCycles = 5 ∧
    (hostReset { start with cpuRun := .jammed }).cpuRun = .running ∧
    (hostReset (after [0x8D, 0x00, 0x80] start)).cpuRun = (after [0x8D, 0x00, 0x80] start).cpuRun := by decide

/-- 95_test_vectors.md V-RS12, V-RS13, V-RS14, V-RS15 (R505, R506). -/
theorem test_host :
    hostRead 0x2002 { start with ppu := { start.ppu with vblank := true, addrW := true } } = .ok (0x80, start) ∧
    hostWrite 0x8000 0x01 start = .error ⟨.romWriteAttempt .cpu 0x8000 0x01, 0x0000, none⟩ ∧
    (hostLoad [0xAA, 0xBB, 0xCC] 0x07FF start).1 = none ∧
    (hostLoad [0xAA, 0xBB, 0xCC] 0x07FF start).2.ram = [(0x000, 0xBB), (0x001, 0xCC), (0x7FF, 0xAA)] ∧
    (hostLoad [0xAA, 0xBB, 0xCC] 0x7FFF start).1 = some ⟨.romWriteAttempt .cpu 0x8000 0xBB, 0x0000, none⟩ ∧
    (hostLoad [0xAA, 0xBB, 0xCC] 0x7FFF start).2 = start :=
  ⟨rfl, rfl, rfl, rfl, rfl, rfl⟩

/-- 95_test_vectors.md V-RS8 to V-RS11 (R536): cartridges that construction refuses. -/
theorem test_construction_refuses (m : Mirroring) (par : Params) (init : InitMem) (handler : FrameHandler) (prg chr : List Byte) :
    (prg.length = 8192 → construct ⟨prg, chr, m, 0⟩ par init handler = none) ∧
    (prg.length = 49152 → construct ⟨prg, chr, m, 0⟩ par init handler = none) ∧
    (prg.length = 16384 → chr.length = 4096 → construct ⟨prg, chr, m, 0⟩ par init handler = none) ∧
    (prg.length = 16384 → chr.length = 8192 → construct ⟨prg, chr, m, 1⟩ par init handler = none) := by
  refine ⟨fun h => ?_, fun h => ?_, fun h g => ?_, fun h g => ?_⟩ <;> simp [construct, prgSizeOf, *]

/-- The table word of LDA #0x10 runs as the first step after reset. -/
theorem test_fetch_word_runs :
    let t := ended (step (State.reset.withFetchWord 16 0x10A9))
    t.a = 0x10 ∧ t.pc = 0x0002 ∧ t.busCycles = 2 := ⟨rfl, rfl, rfl⟩

/-- 20_memory.md R106, R481, 60_exceptions.md R431: fetched from the status register during vblank, the opcode byte is 0x80, and vblank
is clear after it; its operand fetch from 0x2003 faults, with that opcode noted. -/
theorem test_fetch_from_status_then_write_only :
    let o := step { start with pc := 0x2002, ppu := { start.ppu with vblank := true } }
    let t := ended o
    t.cpuRun = .faulted ⟨.ppuWriteOnlyRead 0x2003, 0x2002, some 0x80⟩ ∧ t.pc = 0x2003 ∧ t.ppu.vblank = false ∧
    t.busCycles = 0 := by decide

/-- 20_memory.md R91, R106, 44_control_flow.md R330: the unmapped space reads 0x00, which is BRK. -/
theorem test_fetch_from_unmapped :
    let t := ended (step { start with pc := 0x6000 })
    t.cpuRun = .halted ∧ t.pc = 0x6001 ∧ t.busCycles = 0 := by decide

/-- 60_exceptions.md R468, R502: on the rise of the NMI latch the handler finds the PPU after the tick's dots and changes the input device;
a tick without a rise leaves the device as it was. -/
theorem test_frame_event_runs_handler :
    (let s := { start with ppu := { start.ppu with scanline := 240, dot := 340, ctrl := 0x80 } }
     let t := busTick 2 s
     t.ppu.nmiPending = true ∧ t.frameEvents = 1 ∧ t.input = Config.onFrame s.handler 0 t.ppu s.input) ∧
    (busTick 2 start).input = start.input ∧ (busTick 2 start).frameEvents = 0 := ⟨⟨rfl, rfl, rfl⟩, rfl, rfl⟩

/-! ## Witnesses: what meets the hypotheses of each statement -/

/-- An outcome that is a next state. -/
def isNext : Host.Outcome State Fault Refusal → Bool
  | .next _ => true
  | _ => false

/-- An outcome that is a fault. -/
def isFault : Host.Outcome State Fault Refusal → Bool
  | .fault _ => true
  | _ => false

/-- A result that is no fault. -/
def isOk {α : Type} : Except Fault α → Bool
  | .ok _ => true
  | .error _ => false

theorem exists_next {o : Host.Outcome State Fault Refusal} (h : isNext o = true) : ∃ t, o = .next t := by
  cases o with
  | next t => exact ⟨t, rfl⟩
  | fault f => cases h
  | refused r => cases h

theorem exists_fault {o : Host.Outcome State Fault Refusal} (h : isFault o = true) : ∃ info t, o = .fault (.stopped info t) := by
  cases o with
  | fault f => cases f; exact ⟨_, _, rfl⟩
  | next t => cases h
  | refused r => cases h

theorem exists_ok {α : Type} {e : Except Fault α} (h : isOk e = true) : ∃ r, e = .ok r := by
  cases e with
  | ok r => exact ⟨r, rfl⟩
  | error f => cases h

/-- Construction accepts a cartridge of the sizes and mapper it takes. -/
theorem construct_some {cart : Cartridge} {size : PrgSize} (par : Params) (init : InitMem) (handler : FrameHandler) (h : prgSizeOf cart.prg.length = some size)
    (h' : cart.chr.length = 8192 ∧ cart.mapper = 0) : ∃ s, construct cart par init handler = some s := by
  unfold construct
  rw [h]
  exact ⟨_, if_pos h'⟩

theorem test_witness_DecodeAfterEncode :
    List.all [Instr.lda (.imm 0x00), .lda (.absX 0xFFFF), .asl .acc, .jmpInd 0x02FF, .bne 0x80,
    .nopMemory 0xFC (.absX 0x0000), .jam 0xF2]
      (fun i => decide (Instr.wellFormed i = true)) = true := by decide

theorem test_witness_EncodeAfterDecode : decode [0xBD, 0xF0, 0x12, 0xEA] = .ok (.lda (.absX 0x12F0), [0xEA]) := rfl

/-- LDA #0x5A at 0x1FFE, the last bytes of the RAM mirrors; a NOP at 0x9000 reached through a pending NMI; and instructions fetched
from the status register, the OAM data register and the unmapped space; then the code memory of the second clause, over both wraps. -/
theorem test_witness_StepRunsTheDecodedInstruction :
    (let s := { start with pc := 0x1FFE, ram := [(0x7FE, 0xA9), (0x7FF, 0x5A)] }
     let u := serviceNmi { s with ctx := StepCtx.idle }
     s.cpuRun = .running ∧ (Instr.lda (.imm 0x5A)).wellFormed = true ∧ (Instr.lda (.imm 0x5A)).opcode? = some 0xA9 ∧
     Fetchable 2 u ∧ decode (fetchedBytes 2 u) = .ok (.lda (.imm 0x5A), [])) ∧
    (let s := { start with prg := [(0x1000, 0xEA), (0x3FFB, 0x90)], ppu := { start.ppu with nmiPending := true } }
     let u := serviceNmi { s with ctx := StepCtx.idle }
     s.cpuRun = .running ∧ Instr.nop.wellFormed = true ∧ Instr.nop.opcode? = some 0xEA ∧ u.pc = 0x9000 ∧
     Fetchable 1 u ∧ decode (fetchedBytes 1 u) = .ok (.nop, [])) ∧
    (let u := serviceNmi { { start with pc := 0x2002 } with ctx := StepCtx.idle }
     Fetchable 1 u ∧ decode (fetchedBytes 1 u) = .ok (.brk, [])) ∧
    (let u := serviceNmi { { start with pc := 0x3FFC, ppu := { start.ppu with oam := [(0x00, 0xE8)] } } with ctx := StepCtx.idle }
     Fetchable 1 u ∧ decode (fetchedBytes 1 u) = .ok (.inx, [])) ∧
    (let u := serviceNmi { { start with pc := 0x4018 } with ctx := StepCtx.idle }
     Fetchable 1 u ∧ decode (fetchedBytes 1 u) = .ok (.brk, [])) ∧
    inCodeMemory 2 0x1FFE = true ∧ inCodeMemory 3 0xFFFE = true :=
  ⟨⟨rfl, rfl, rfl, ⟨by decide, by decide, trivial⟩, rfl⟩, ⟨rfl, rfl, rfl, by decide, ⟨by decide, trivial⟩, rfl⟩,
    ⟨⟨by decide, trivial⟩, rfl⟩, ⟨⟨by decide, trivial⟩, rfl⟩, ⟨⟨by decide, trivial⟩, rfl⟩, rfl, rfl⟩

theorem test_witness_NmiEntryEffect :
    start.ppu.nmiPending = false ∧ (start.setPpu { start.ppu with nmiPending := true }).ppu.nmiPending = true := ⟨rfl, rfl⟩

theorem test_witness_StoppedCpuTakesNoStep :
    (start.setRun .halted).cpuRun = .halted ∧ (start.setRun .jammed).cpuRun = .jammed ∧
    (start.setRun (.faulted ⟨.ppuWriteOnlyRead 0x2000, 0x0600, some 0xAD⟩)).cpuRun
      = .faulted ⟨.ppuWriteOnlyRead 0x2000, 0x0600, some 0xAD⟩ := ⟨rfl, rfl, rfl⟩

/-- STA to ROM, whose opcode was fetched, and a fetch from a write-only register, without one: both running steps fault. -/
theorem test_witness_FaultStopsTheStep_and_OnlyAccessFaultsHappen :
    (let s := placeBytes 0x0600 [0x8D, 0x00, 0x80] start
     let u := serviceNmi { s with ctx := StepCtx.idle }
     s.cpuRun = .running ∧ (∃ info t, step s = .fault (.stopped info t)) ∧ ReadOk u.pc u) ∧
    (let s := { start with pc := 0x2000 }
     let u := serviceNmi { s with ctx := StepCtx.idle }
     s.cpuRun = .running ∧ (∃ info t, step s = .fault (.stopped info t)) ∧ ¬ ReadOk u.pc u) :=
  ⟨⟨rfl, exists_fault rfl, by decide⟩, ⟨rfl, exists_fault rfl, by decide⟩⟩

/-- The first and the last write-only register address; then the first operand byte and the second in one, and an operand byte behind
an opcode fetched from the status register. -/
theorem test_witness_FetchFromWriteOnlyRegisterFaults :
    (let u := serviceNmi { { start with pc := 0x2000 } with ctx := StepCtx.idle }
     start.cpuRun = .running ∧ u.pc = 0x2000 ∧ ¬ ReadOk u.pc u) ∧
    (let u := serviceNmi { { start with pc := 0x3FFE } with ctx := StepCtx.idle }
     u.pc = 0x3FFE ∧ ¬ ReadOk u.pc u) ∧
    (let u := serviceNmi { { start with pc := 0x1FFF, ram := [(0x7FF, 0xA9)] } with ctx := StepCtx.idle }
     (Instr.lda (.imm 0x00)).wellFormed = true ∧ (Instr.lda (.imm 0x00)).opcode? = some (readByte u.pc u) ∧
     1 < (Instr.lda (.imm 0x00)).length ∧ Fetchable 1 u ∧ ¬ ReadOk (afterFetches 1 u).pc (afterFetches 1 u)) ∧
    (let u := serviceNmi { { start with pc := 0x1FFE, ram := [(0x7FE, 0xAD)] } with ctx := StepCtx.idle }
     (Instr.lda (.abs 0x0000)).wellFormed = true ∧ (Instr.lda (.abs 0x0000)).opcode? = some (readByte u.pc u) ∧
     2 < (Instr.lda (.abs 0x0000)).length ∧ Fetchable 2 u ∧ ¬ ReadOk (afterFetches 2 u).pc (afterFetches 2 u)) ∧
    (let u := serviceNmi { { start with pc := 0x2002, ppu := { start.ppu with vblank := true } } with ctx := StepCtx.idle }
     (Instr.nopImmediate 0x80 0x00).opcode? = some (readByte u.pc u) ∧ 1 < (Instr.nopImmediate 0x80 0x00).length ∧
     Fetchable 1 u ∧ ¬ ReadOk (afterFetches 1 u).pc (afterFetches 1 u)) :=
  ⟨⟨rfl, rfl, by decide⟩, ⟨rfl, by decide⟩, ⟨rfl, rfl, by decide, ⟨by decide, trivial⟩, by decide⟩,
    ⟨rfl, rfl, by decide, ⟨by decide, by decide, trivial⟩, by decide⟩, ⟨rfl, by decide, ⟨by decide, trivial⟩, by decide⟩⟩

theorem test_witness_CyclesOfAnInstruction :
    (∃ t, exec (.lda (.absX 0x02F0)) { start with x := 0x20 } = .next t) ∧ (Instr.lda (.absX 0x02F0)).wellFormed = true ∧
    (∃ t, exec (.bne 0x10) { start with pc := 0x06F2 } = .next t) ∧ (∃ t, exec .inx start = .next t) :=
  ⟨exists_next rfl, rfl, exists_next rfl, exists_next rfl⟩

theorem test_witness_StepKeepsInvariant_and_StepKeepsRoms :
    start.Inv ∧ (∃ t, step (placeBytes 0x0600 [0xE6, 0x10] start) = .next t) ∧ (placeBytes 0x0600 [0xE6, 0x10] start).Inv :=
  ⟨by decide, exists_next rfl, by decide⟩

/-- The ends of each clause's range, and the address whose reads the second clause takes and whose writes it does not. -/
theorem test_witness_RamRomAndUnmapped :
    (List.all [(0x0000 : Word), 0x1FFF]
      (fun a => decide (a.toNat < 0x2000)) = true) ∧
    (List.all [(0x4000 : Word), 0x4013, 0x4014, 0x4015, 0x4017, 0x7FFF]
      (fun a => decide (0x4000 ≤ a.toNat ∧ a.toNat < 0x8000 ∧ a.toNat ≠ 0x4016)) = true) ∧
    (List.all [(0x4013 : Word), 0x4015]
      (fun a => decide (a.toNat ≠ 0x4014)) = true) ∧
    (List.all [(0x8000 : Word), 0xFFFF]
      (fun a => decide (0x8000 ≤ a.toNat)) = true) := by decide

theorem test_witness_ReadFrame :
    List.all [(0x0000 : Word), 0x1FFF, 0x2002, 0x3FFF, 0x4000, 0x4016, 0xFFFF]
      (fun a => decide (ReadOk a start)) = true := by decide

theorem test_witness_ReadFrame_reads : (∃ r, memRead 0x2007 start = .ok r) ∧ (∃ r, memRead 0x4016 start = .ok r) :=
  ⟨exists_ok rfl, exists_ok rfl⟩

theorem test_witness_WriteFrame :
    (∃ t, memWrite 0x1FFF 0x01 start = .ok t) ∧ (∃ t, memWrite 0x2004 0x01 start = .ok t) ∧
    (∃ t, memWrite 0x3FFF 0x01 { start with ppu := { start.ppu with v := 0x3FFF } } = .ok t) ∧
    (∃ t, memWrite 0x4016 0x01 start = .ok t) ∧ (∃ t, memWrite 0x7FFF 0x01 start = .ok t) :=
  ⟨exists_ok rfl, exists_ok rfl, exists_ok rfl, exists_ok rfl, exists_ok rfl⟩

/-- The forms that never cross a page, and a crossing of each that can. -/
theorem test_witness_EffectiveAddresses :
    (List.all [Operand.zp 0xFF, .zpX 0xFF, .zpY 0xFF, .abs 0xFFFF, .indX 0xFF, .acc, .imm 0x00]
      (fun o => decide (o.mode ≠ .absoluteX ∧ o.mode ≠ .absoluteY ∧ o.mode ≠ .indirectY)) = true) ∧
    crosses (.absX 0xFFFF) { start with x := 0x01 } = true ∧ ea (.absX 0xFFFF) { start with x := 0x01 } = 0x0000 ∧
    crosses (.absY 0x02FF) { start with y := 0x00 } = false ∧
    crosses (.indY 0xFF) { start with y := 0x01, ram := [(0xFF, 0xFF), (0x00, 0x02)] } = true := by decide

/-- Each register at its first address and at its last mirror, under both values of each policy. -/
theorem test_witness_registers :
    (List.all [(0, 0x2000), (1, 0x2001), (2, 0x2002), (3, 0x2003), (4, 0x2004), (5, 0x2005), (6, 0x2006), (7, (0x2007 : Word)),
      (0, 0x3FF8), (1, 0x3FF9), (2, 0x3FFA), (3, 0x3FFB), (4, 0x3FFC), (5, 0x3FFD), (6, 0x3FFE), (7, 0x3FFF)]
      (fun r => decide (0x2000 ≤ r.2.toNat ∧ r.2.toNat < 0x4000 ∧ r.2.toNat % 8 = r.1)) = true) ∧
    start.params.statusLowBits = .zero ∧ lenient.params.statusLowBits = .any ∧
    start.params.woRead = .fault ∧ lenient.params.woRead = .any ∧
    start.params.statusWrite = .fault ∧ lenient.params.statusWrite = .ignore ∧
    start.params.chrWrite = .fault ∧ lenient.params.chrWrite = .ignore ∧
    start.params.sharedW = false ∧ lenient.params.sharedW = true ∧
    start.ppu.addrW = false ∧ ({ start.ppu with addrW := true } : Ppu).addrW = true ∧
    start.ppu.scrollW = false ∧ ({ start.ppu with scrollW := true } : Ppu).scrollW = true := by decide

/-- The ends of each range of the PPU's address space, in each mirroring mode. -/
theorem test_witness_PpuAddressSpace_and_data :
    (List.all [(0x0000 : BitVec 14), 0x1FFF]
      (fun a => decide (a.toNat ≤ 0x1FFF ∧ a.toNat ≤ 0x3EFF)) = true) ∧
    (List.all [(0x2000 : BitVec 14), 0x2FFF, 0x3000, 0x3EFF]
      (fun a => decide (0x2000 ≤ a.toNat ∧ a.toNat ≤ 0x3EFF)) = true) ∧
    (List.all [(0x3F00 : BitVec 14), 0x3FFF]
      (fun a => decide (0x3F00 ≤ a.toNat ∧ 0x2000 ≤ a.toNat)) = true) ∧
    ({ start.ppu with mirroring := .fourScreen } : Ppu).mirroring = .fourScreen ∧
    start.ppu.mirroring = .vertical ∧ ({ start.ppu with mirroring := .horizontal } : Ppu).mirroring ≠ .fourScreen := by decide

/-- The pages where the clauses meet, under both values of `WO_READ_POLICY`. -/
theorem test_witness_OamDma :
    (List.all [(0x00 : Byte), 0x1F, 0x40, 0xFF]
      (fun pg => decide (pg.toNat < 0x20 ∨ 0x40 ≤ pg.toNat ∨ start.params.woRead = .any)) = true) ∧
    (List.all [(0x20 : Byte), 0x3F]
      (fun pg => decide (pg.toNat < 0x20 ∨ 0x40 ≤ pg.toNat ∨ lenient.params.woRead = .any)) = true) ∧
    (List.all [(0x00 : Byte), 0x1F, 0x41, 0xFF]
      (fun pg => decide (pg.toNat < 0x20 ∨ 0x41 ≤ pg.toNat)) = true) ∧
    (0x40 : Byte).toNat = 0x40 ∧
    (List.all [(0x20 : Byte), 0x3F]
      (fun pg => decide (0x20 ≤ pg.toNat ∧ pg.toNat < 0x40 ∧ start.params.woRead = .fault)) = true) := by decide

theorem test_witness_DotCounters_and_DotEvents :
    (List.all [(0, 0), (239, 340), (240, 0), (240, 339), (241, 340), (261, 339)]
      (fun q => decide (q.1 ≤ 261 ∧ q.2 ≤ 340 ∧ ¬ (q.2 = 340 ∧ (q.1 = 240 ∨ q.1 = 261)))) = true) ∧
    (let p := { start.ppu with scanline := 240, dot := 340 }
     p.scanline ≤ 261 ∧ p.dot ≤ 340 ∧ p.dot = 340 ∧ p.scanline = 240) ∧
    (let p := { start.ppu with scanline := 261, dot := 340 }
     p.scanline ≤ 261 ∧ p.dot ≤ 340 ∧ p.dot = 340 ∧ p.scanline = 261) ∧
    start.params.sprite0Source = .never ∧ start.params.overflowSource = .never ∧
    Params.default.sprite0Source = .oracle ∧ ({ start.ppu with spriteZero := true } : Ppu).spriteZero = true ∧
    ({ start.ppu with overflow := true } : Ppu).overflow = true := by decide

theorem test_witness_VblankAfter82181Dots : start.ppu.scanline = 0 ∧ start.ppu.dot = 0 := ⟨rfl, rfl⟩

theorem test_witness_Construction :
    (∃ s, construct ⟨List.replicate 16384 0xEA, List.replicate 8192 0, .vertical, 0⟩ Params.default InitMem.zero 0 = some s) ∧
    (∃ s, construct ⟨List.replicate 32768 0xEA, List.replicate 8192 0, .fourScreen, 0⟩ Params.default InitMem.zero 0 = some s) ∧
    InitMem.zero.ok = true := by
  refine ⟨construct_some (size := .k16) _ _ _ ?_ ⟨List.length_replicate, rfl⟩,
    construct_some (size := .k32) _ _ _ ?_ ⟨List.length_replicate, rfl⟩, rfl⟩
  · exact congrArg prgSizeOf List.length_replicate
  · exact congrArg prgSizeOf List.length_replicate

theorem test_witness_HostAccess :
    ReadOk 0x2002 start ∧ ¬ ReadOk 0x2000 start ∧ WriteOk 0x7FFF 0x01 start ∧ ¬ WriteOk 0x8000 0x01 start ∧
    ¬ WriteOk 0x2007 0x01 start ∧ ¬ WriteOk 0x4014 0x20 start ∧ WriteOk 0x4014 0x1F start ∧ ¬ WriteOk 0x2002 0x00 start :=
  ⟨by decide, by decide, by decide, by decide, by decide, by decide, by decide, by decide⟩

/-- A load that reaches PRG ROM with its second byte, and one that reaches the PPU's read-only status with it; a load that ends where
RAM does; and one of the first and the last unmapped address. -/
theorem test_witness_HostLoad :
    (hostLoad [0xAA] 0x7FFF start = (none, start) ∧ 0x8000 ≤ ((0x7FFF : Word) + BitVec.ofNat 16 1).toNat) ∧
    (∃ t, hostLoad [0xAA] 0x2001 start = (none, t) ∧ (∃ info, hostWrite 0x2002 0xBB t = .error info) ∧
      ∃ u, hostWrite 0x2003 0xBB t = .ok u) ∧
    (∃ t, hostLoad [] 0x8000 start = (none, t)) ∧
    (0x1FFF : Word).toNat + [(0xAA : Byte)].length ≤ 0x2000 ∧
    (∀ l, 0 < l → l < [(0xAA : Byte)].length → ((0x1FFF : Word).toNat + l) % 0x800 ≠ ((0x1FFF : Word).toNat + 0) % 0x800) ∧
    (0x4018 ≤ (0x4018 : Word).toNat ∧ (0x7FFF : Word).toNat + [(0xAA : Byte)].length ≤ 0x8000) :=
  ⟨⟨rfl, by decide⟩, ⟨_, rfl, ⟨_, rfl⟩, ⟨_, rfl⟩⟩, ⟨_, rfl⟩, by decide, fun l h1 h2 => absurd h2 (by simp; omega), by decide⟩

/-- Every loading instruction in a mode whose read completes, and in one whose read faults; CPX, CPY, BIT and LAS among them. -/
theorem test_witness_LoadSpec :
    (List.all [(Instr.lda, Operand.imm 0x01), (.ldx, .absY 0x3000), (.ldy, .absX 0x12F0), (.lax, .indY 0xFF), (.adc, .imm 0x7F),
      (.sbc, .abs 0x8000), (.and, .zp 0xFF), (.ora, .zpX 0xFF), (.eor, .indX 0x80), (.cmp, .abs 0x2002), (.cpx, .imm 0x00),
      (.cpy, .zp 0x00), (.bit, .abs 0x2002), (.nopMemory 0x1C, .absX 0xFFFF), (.nopMemory 0x0C, .abs 0x4016)]
      (fun p => decide ((p.1 p.2).wellFormed = true ∧ OperandOk p.2 { start with y := 0x02 })) = true) ∧
    (List.all [(Instr.lda, Operand.abs 0x2000), (.ldx, .absY 0x2001), (.ldy, .absX 0x2003), (.lax, .abs 0x2005), (.adc, .abs 0x3FFE),
      (.sbc, .abs 0x2000), (.and, .abs 0x2000), (.ora, .absX 0x2001), (.eor, .absY 0x2000), (.cmp, .abs 0x2000),
      (.cpx, .abs 0x2000), (.cpy, .abs 0x2000), (.bit, .abs 0x2006), (.nopMemory 0x1C, .absX 0x2000)]
      (fun p => decide ((p.1 p.2).wellFormed = true ∧ ¬ OperandOk p.2 start)) = true) ∧
    ReadOk (ea (.absY 0x0300) start) start ∧ ¬ ReadOk (ea (.absY 0x2000) start) start := by decide

/-- Every storing instruction in a mode whose write completes, and in one whose write faults. -/
theorem test_witness_StoreInstructions :
    (List.all [(Instr.sta, Operand.abs 0x4014), (.stx, .zpY 0xFF), (.sty, .abs 0x7FFF), (.sax, .indX 0x10)]
      (fun p => decide ((p.1 p.2).wellFormed = true ∧ WriteOk (ea p.2 start) 0x00 start)) = true) ∧
    (List.all [(Instr.sta, Operand.abs 0x8000), (.stx, .abs 0xFFFF), (.sty, .abs 0x2007), (.sax, .abs 0x2002)]
      (fun p => decide ((p.1 p.2).wellFormed = true ∧ ¬ WriteOk (ea p.2 start) 0x00 start)) = true) := by decide

/-- Every read-modify-write instruction with a byte whose read and write complete; then the read that faults, and the write. -/
theorem test_witness_RmwSpec :
    (List.all [Instr.inc, .dec, .asl, .lsr, .rol, .ror, .slo, .rla, .sre, .rra, .dcp, .isb]
      (fun k => decide ((k (.abs 0x0010)).wellFormed = true ∧ (k (.abs 0x2000)).wellFormed = true ∧ (k (.abs 0x8000)).wellFormed = true)) = true) ∧
    Operand.abs 0x0010 ≠ .acc ∧ ReadOk 0x0010 start ∧ WriteOk 0x0010 0x01 (afterRead 0x0010 start) ∧
    ¬ ReadOk 0x2000 start ∧ ReadOk 0x8000 start ∧ ¬ WriteOk 0x8000 0x01 (afterRead 0x8000 start) ∧
    ReadOk 0x2007 start ∧ ¬ WriteOk 0x2007 0x01 (afterRead 0x2007 start) :=
  ⟨by decide, by decide, by decide, by decide, by decide, by decide, by decide, by decide, by decide⟩

/-- Both outcomes of each branch condition. -/
theorem test_witness_BranchInstructions :
    (let f := Flags.ofByte 0x00
     f.c = false ∧ f.z = false ∧ f.n = false ∧ f.v = false) ∧
    (let f := Flags.ofByte 0xC3
     f.c = true ∧ f.z = true ∧ f.n = true ∧ f.v = true) := by decide

/-- Pointers in RAM, in a write-only register, and with only the second byte in one. -/
theorem test_witness_JumpInstructions :
    (ReadOk 0x02FF start ∧ ReadOk 0x0200 (afterRead 0x02FF start)) ∧ ¬ ReadOk 0x2000 start ∧
    (ReadOk 0x20FF start ∧ ¬ ReadOk 0x2000 (afterRead 0x20FF start)) := by decide

theorem test_witness_SubroutineInstructions : ∃ t, exec (.jsr 0x0700) start = .next t := ⟨_, rfl⟩

theorem test_witness_HaltAndJam :
    (Instr.jam 0x02).wellFormed = true ∧ start.params.jamPolicy = .jam ∧ lenient.params.jamPolicy = .nop := ⟨rfl, rfl, rfl⟩

/-- Unstable stores that complete and that fault, under both values of `UNSTABLE_STORE`. -/
theorem test_witness_UnstableStores :
    start.params.unstableStore = .formula ∧ lenient.params.unstableStore ≠ .formula ∧
    (Instr.ahx (.absY 0x0200)).wellFormed = true ∧ WriteOk (ea (.absY 0x0200) start) 0x00 start ∧
    (Instr.ahx (.indY 0x40)).wellFormed = true ∧ WriteOk (ea (.indY 0x40) start) 0x00 start ∧
    WriteOk (ea (.absX 0x0500) start) 0x00 start ∧ WriteOk (ea (.absY 0x0200) lenient) (Config.unstableByte lenient.draws) lenient ∧
    ¬ WriteOk (ea (.absY 0x8000) start) 0x00 start ∧ ¬ WriteOk (ea (.absX 0x8000) start) 0x00 start :=
  ⟨by decide, by decide, by decide, by decide, by decide, by decide, by decide, by decide, by decide, by decide⟩

end Sys2Proof.Tests
end

section
/-! Proofs of the state family: what a step's parts do to everything outside the CPU's registers. -/

namespace Sys2Proof.Machine

/-! ## The state outside the registers -/

/-- The state with what an instruction computes in blanked: the registers, the run state, the cycle count, the input device and
the draws. Two states that agree here differ in nothing else. -/
def State.outside (s : State) : State :=
  { s with
    a := 0, x := 0, y := 0, sp := 0, pc := 0, p := Flags.ofByte 0, cpuRun := .running, ctx := { s.ctx with cyc := 0 }
    input := 0, inputWrites := [], draws := 0 }

/-- `t` differs from `s` in registers, run state, cycle count, input device and draws only. -/
abbrev SameOutside (s t : State) : Prop := t.outside = s.outside

@[simp] theorem State.outside_setP (s : State) (f : Flags) : (s.setP f).outside = s.outside := rfl
@[simp] theorem State.outside_setPC (s : State) (w : Word) : (s.setPC w).outside = s.outside := rfl
@[simp] theorem State.outside_popped (s : State) : s.popped.outside = s.outside := rfl
@[simp] theorem State.outside_popped16 (s : State) : s.popped16.outside = s.outside := rfl

/-- What every part of a step before its bus tick keeps: the ROMs, the mirroring, the parameters, the handler, the bus cycles, and
the canonical form and bounds of the memories. -/
structure Keeps (s t : State) : Prop where
  prg : t.prg = s.prg
  prgSize : t.prgSize = s.prgSize
  chr : t.ppu.chr = s.ppu.chr
  mirroring : t.ppu.mirroring = s.ppu.mirroring
  params : t.params = s.params
  handler : t.handler = s.handler
  busCycles : t.busCycles = s.busCycles
  memInv : MemInv s → MemInv t

theorem Keeps.refl (s : State) : Keeps s s := ⟨rfl, rfl, rfl, rfl, rfl, rfl, rfl, id⟩

theorem Keeps.trans {s t u : State} (h : Keeps s t) (k : Keeps t u) : Keeps s u where
  prg := k.prg.trans h.prg
  prgSize := k.prgSize.trans h.prgSize
  chr := k.chr.trans h.chr
  mirroring := k.mirroring.trans h.mirroring
  params := k.params.trans h.params
  handler := k.handler.trans h.handler
  busCycles := k.busCycles.trans h.busCycles
  memInv := k.memInv ∘ h.memInv

theorem Keeps.of_sameCore {s t : State} (h : SameCore s t) (hm : MemInv s → MemInv t) : Keeps s t := by
  obtain ⟨-, -, -, -, -, -, -, -, -, hprg, hsize, hbus, hpar, -, hchr, hmir, -, -, -, -, -, hhandler⟩ := h
  exact ⟨hprg, hsize, hchr, hmir, hpar, hhandler, hbus, hm⟩

theorem Keeps.of_sameOutside {s t : State} (h : SameOutside s t) : Keeps s t where
  prg := congrArg (·.prg) h
  prgSize := congrArg (·.prgSize) h
  chr := congrArg (·.ppu.chr) h
  mirroring := congrArg (·.ppu.mirroring) h
  params := congrArg (·.params) h
  handler := congrArg (·.handler) h
  busCycles := congrArg (·.busCycles) h
  memInv hi := by
    have hram : t.ram = s.ram := congrArg (·.ram) h
    have hppu : t.ppu = s.ppu := congrArg (·.ppu) h
    simpa only [MemInv, hram, hppu] using hi

/-! ## Accesses -/

/-- A read that completes, and what it answers. -/
theorem memRead_eq_ok {a : Word} {b : Byte} {s t : State} (h : memRead a s = .ok (b, t)) :
    ReadOk a s ∧ b = readByte a s ∧ t = afterRead a s := by
  by_cases hr : ReadOk a s
  · rw [memRead_ok hr] at h
    cases h
    exact ⟨hr, rfl, rfl⟩
  · rw [memRead_fault hr] at h
    cases h

theorem keeps_afterRead (a : Word) (s : State) : Keeps s (afterRead a s) :=
  .of_sameCore (sameCore_afterRead a s) (memInv_afterRead a)

theorem keeps_memRead {a : Word} {b : Byte} {s t : State} (h : memRead a s = .ok (b, t)) : Keeps s t := by
  obtain ⟨-, -, rfl⟩ := memRead_eq_ok h
  exact keeps_afterRead a s

theorem keeps_memWrite {a : Word} {v : Byte} {s t : State} (h : memWrite a v s = .ok t) : Keeps s t :=
  .of_sameCore (sameCore_memWrite h) fun hi => memInv_memWrite hi h

theorem keeps_push (s : State) (v : Byte) : Keeps s (s.push v) where
  prg := rfl
  prgSize := rfl
  chr := rfl
  mirroring := rfl
  params := rfl
  handler := rfl
  busCycles := rfl
  memInv hi := by
    have hlt : stackIndex s.sp < 2048 := by
      have := s.sp.isLt
      unfold stackIndex
      omega
    exact ⟨⟨Memory.wf_write _ _ hi.1.1, Memory.within_write _ hlt hi.1.2⟩, hi.2⟩

theorem keeps_push16 (s : State) (w : Word) : Keeps s (s.push16 w) :=
  (keeps_push s (hi w)).trans (keeps_push _ (lo w))

/-! ## Operand access -/

/-- A load that completes, and what it answers. -/
theorem load_eq_ok {i : Instr} {o : Operand} {m : Byte} {s t : State} (h : load i o s = .ok (m, t)) :
    OperandOk o s ∧ m = operandByte o s ∧ t = afterOperand i o s := by
  by_cases hr : OperandOk o s
  · rw [load_ok hr] at h
    cases h
    exact ⟨hr, rfl, rfl⟩
  · by_cases ha : o = .acc
    · subst ha
      cases h
    · rw [load_fault ha hr] at h
      cases h

theorem effAddr_error {o : Operand} {s : State} (h : resolves o = false) :
    effAddr o s = .error (faultAt (.invalidAddressingModeUse o.mode) s) := by
  simp [effAddr, h, raise_eq_faultAt]

/-- A store that completes is the write of its effective address. -/
theorem store_eq_ok {o : Operand} {v : Byte} {s t : State} (h : store o v s = .ok t) :
    resolves o = true ∧ memWrite (ea o s) v s = .ok t := by
  cases hr : resolves o
  · simp [store, effAddr_error hr] at h
  · exact ⟨rfl, store_eq v s hr ▸ h⟩

/-- A read-modify-write that completes: of A, or of the byte at the effective address. -/
theorem rmw_eq_ok {o : Operand} {f : Byte → Byte} {v : Byte} {s t : State} (h : rmw o f s = .ok (v, t)) :
    (o = .acc ∧ v = s.a ∧ t = s.setA (f s.a)) ∨
    (resolves o = true ∧ ReadOk (ea o s) s ∧ v = readByte (ea o s) s ∧
      memWrite (ea o s) (f v) (afterRead (ea o s) s) = .ok t) := by
  by_cases hr : resolves o = true
  · rw [rmw_eq f s hr] at h
    split at h
    · cases h
    · next b u hread =>
      split at h
      · cases h
      · next w hwrite =>
        cases h
        obtain ⟨hok, rfl, rfl⟩ := memRead_eq_ok hread
        exact .inr ⟨hr, hok, rfl, hwrite⟩
  · cases o
    case acc => cases h; exact .inl ⟨rfl, rfl, rfl⟩
    case imm b => cases h
    all_goals exact absurd rfl hr

theorem keeps_afterOperand (i : Instr) (o : Operand) (s : State) : Keeps s (afterOperand i o s) := by
  unfold afterOperand
  split
  · exact .refl s
  · dsimp only
    split
    · exact (keeps_afterRead _ s).trans (.of_sameOutside rfl)
    · exact keeps_afterRead _ s

theorem keeps_load {i : Instr} {o : Operand} {m : Byte} {s t : State} (h : load i o s = .ok (m, t)) : Keeps s t := by
  obtain ⟨-, -, rfl⟩ := load_eq_ok h
  exact keeps_afterOperand i o s

theorem keeps_store {o : Operand} {v : Byte} {s t : State} (h : store o v s = .ok t) : Keeps s t :=
  keeps_memWrite (store_eq_ok h).2

theorem keeps_rmw {o : Operand} {f : Byte → Byte} {v : Byte} {s t : State} (h : rmw o f s = .ok (v, t)) :
    Keeps s t := by
  obtain ⟨-, -, rfl⟩ | ⟨-, -, -, hwrite⟩ := rmw_eq_ok h
  · exact .of_sameOutside rfl
  · exact (keeps_afterRead _ s).trans (keeps_memWrite hwrite)

theorem keeps_jmpIndRead16 {ptr w : Word} {s t : State} (h : jmpIndRead16 ptr s = .ok (w, t)) : Keeps s t := by
  unfold jmpIndRead16 at h
  split at h
  · cases h
  · next l u hlow =>
    split at h
    · cases h
    · next b v hhigh =>
      cases h
      exact (keeps_memRead hlow).trans (keeps_memRead hhigh)

/-! ## The shape of every instruction -/

/-- What an instruction can be: a computation in registers, one after a push, or one after an access of its operand. -/
inductive ExecShape (s : State) : Host.Outcome State Fault Refusal → Prop
  | registers {t : State} (h : SameOutside s t) : ExecShape s (.next t)
  | push (v : Byte) {t : State} (h : SameOutside (s.push v) t) : ExecShape s (.next t)
  | push16 (w : Word) {t : State} (h : SameOutside (s.push16 w) t) : ExecShape s (.next t)
  | load (i : Instr) (o : Operand) {k : Byte → State → State} (h : ∀ m u, SameOutside u (k m u)) :
      ExecShape s (onLoad i o s k)
  | rmw (o : Operand) (f : Byte → Byte) {k : Byte → State → State} (h : ∀ v u, SameOutside u (k v u)) :
      ExecShape s (onRmw o f s k)
  | store (o : Operand) (v : Byte) {u : State} (h : SameOutside s u) : ExecShape s (outcome (store o v u))
  | jmpInd (ptr : Word) : ExecShape s (execJmpInd ptr s)

theorem execShape_branch (cond : Bool) (off : Byte) (s : State) : ExecShape s (branch cond off s) := by
  cases cond
  · exact .registers rfl
  · exact .registers rfl

theorem sameOutside_unstableDraw (s : State) : SameOutside s (unstableDraw s) := by
  unfold unstableDraw
  split <;> rfl

theorem execShape_unstableStore (o : Operand) (r : Byte) {s u : State} (h : SameOutside s u) :
    ExecShape s (unstableStore o r u) :=
  .store o _ ((sameOutside_unstableDraw u).trans h)

theorem execShape_execJam (s : State) : ExecShape s (execJam s) := by
  unfold execJam
  split
  · exact .registers rfl
  · exact .registers rfl

theorem sameOutside_returnFromInterrupt (s : State) : SameOutside s (returnFromInterrupt s) := by
  simp [SameOutside, returnFromInterrupt]

theorem execShape_exec (i : Instr) (s : State) : ExecShape s (exec i s) := by
  cases i with
  | lda o | ldx o | ldy o | adc o | sbc o | and o | ora o | eor o | cmp o | cpx o | cpy o | bit o | lax o =>
    exact .load _ o fun _ _ => rfl
  | nopMemory code o => exact .load _ o fun _ _ => rfl
  | las base => exact .load _ (.absY base) fun _ _ => rfl
  | inc o | dec o | asl o | lsr o | rol o | ror o | slo o | rla o | sre o | rra o | dcp o | isb o =>
    exact .rmw o _ fun _ _ => rfl
  | sta o | stx o | sty o | sax o => exact .store o _ rfl
  | ahx o => exact execShape_unstableStore o _ rfl
  | shx base | tas base => exact execShape_unstableStore (.absY base) _ rfl
  | shy base => exact execShape_unstableStore (.absX base) _ rfl
  | bcc off | bcs off | beq off | bne off | bmi off | bpl off | bvc off | bvs off => exact execShape_branch _ off s
  | jmpInd ptr => exact .jmpInd ptr
  | jsr target => exact .push16 (s.pc - 1) (State.outside_setPC _ target)
  | pha => exact .push s.a rfl
  | php => exact .push s.p.phpByte rfl
  | jam code => exact execShape_execJam s
  | tax | tay | txa | tya | tsx | txs | inx | iny | dex | dey => exact .registers rfl
  | jmp target => exact .registers rfl
  | rti => exact .registers (sameOutside_returnFromInterrupt s)
  | rts | brk | pla | plp | clc | cld | cli | clv | sec | sed | sei | nop => exact .registers rfl
  | alr imm | arr imm | axs imm | sbcEB imm | xaa imm | lxa imm => exact .registers rfl
  | anc code imm | nopImmediate code imm => exact .registers rfl
  | nopImplied code => exact .registers rfl

/-- An outcome of that shape keeps what a part of a step keeps. -/
theorem ExecShape.keeps {s t : State} {r : Host.Outcome State Fault Refusal} (h : ExecShape s r) (hr : r = .next t) :
    Keeps s t := by
  cases h with
  | registers h => cases hr; exact .of_sameOutside h
  | push v h => cases hr; exact (keeps_push s v).trans (.of_sameOutside h)
  | push16 w h => cases hr; exact (keeps_push16 s w).trans (.of_sameOutside h)
  | load i o h =>
    unfold onLoad at hr
    split at hr
    · cases hr
    · next m u hload => cases hr; exact (keeps_load hload).trans (.of_sameOutside (h m u))
  | rmw o f h =>
    unfold onRmw at hr
    split at hr
    · cases hr
    · next v u hrmw => cases hr; exact (keeps_rmw hrmw).trans (.of_sameOutside (h v u))
  | @store o v u h =>
    cases hstore : Machine.store o v u with
    | error e => rw [hstore] at hr; cases hr
    | ok w => rw [hstore] at hr; cases hr; exact (Keeps.of_sameOutside h).trans (keeps_store hstore)
  | jmpInd ptr =>
    unfold execJmpInd at hr
    split at hr
    · cases hr
    · next w u hread => cases hr; exact (keeps_jmpIndRead16 hread).trans (.of_sameOutside rfl)

theorem keeps_exec {i : Instr} {s t : State} (h : exec i s = .next t) : Keeps s t := (execShape_exec i s).keeps h

/-! ## NMI entry and fetch -/

theorem keeps_nmiEntry (s : State) : Keeps s (nmiEntry s) :=
  ((keeps_push16 s s.pc).trans (keeps_push _ s.p.nmiByte)).trans (.of_sameOutside rfl)

theorem keeps_serviceNmi (s : State) : Keeps s (serviceNmi s) := by
  unfold serviceNmi
  split
  · have hclear : Keeps s (s.setPpu { s.ppu with nmiPending := false }) := ⟨rfl, rfl, rfl, rfl, rfl, rfl, rfl, id⟩
    exact hclear.trans (keeps_nmiEntry _)
  · exact .refl s

theorem keeps_fetch8 {b : Byte} {s t : State} (h : fetch8 s = .ok (b, t)) : Keeps s t := by
  unfold fetch8 at h
  split at h
  · cases h
  · next v u hread => cases h; exact (keeps_memRead hread).trans (.of_sameOutside rfl)

theorem keeps_fetchOperands {r : OpRow} {i : Instr} {s t : State} (h : fetchOperands r s = .ok (i, t)) : Keeps s t := by
  unfold fetchOperands at h
  split at h
  · cases h; exact .refl s
  · split at h
    · cases h
    · next b1 u h1 => cases h; exact keeps_fetch8 h1
  · split at h
    · cases h
    · next b1 u h1 =>
      split at h
      · cases h
      · next b2 v h2 => cases h; exact (keeps_fetch8 h1).trans (keeps_fetch8 h2)

theorem keeps_setCtx (s : State) (c : StepCtx) : Keeps s (s.setCtx c) := ⟨rfl, rfl, rfl, rfl, rfl, rfl, rfl, id⟩

theorem keeps_fetchInstr {i : Instr} {s t : State} (h : fetchInstr s = .ok (i, t)) : Keeps s t := by
  unfold fetchInstr at h
  split at h
  · cases h
  · next op u hop =>
    have hbegin : Keeps s u := (keeps_setCtx s _).trans (keeps_fetch8 hop)
    split at h
    · cases h
    · exact (hbegin.trans (keeps_setCtx u _)).trans (keeps_fetchOperands h)

/-! ## The bus tick -/

/-- The PPU at reset but for its memories and its mirroring: two PPUs agree here when those agree. -/
def Ppu.memories (p : Ppu) : Ppu :=
  { Ppu.reset with chr := p.chr, mirroring := p.mirroring, vram := p.vram, palette := p.palette, oam := p.oam }

theorem Ppu.inv_iff (p : Ppu) : p.Inv ↔ p.memories.Inv ∧ p.scanline ≤ 261 ∧ p.dot ≤ 340 := by
  simp [Ppu.Inv, Ppu.memories, Ppu.reset, and_assoc]

@[simp] theorem Ppu.memories_lineEvents (p : Ppu) : p.lineEvents.memories = p.memories := by
  unfold Ppu.lineEvents
  split
  · rfl
  · split <;> rfl

@[simp] theorem Ppu.dot_lineEvents (p : Ppu) : p.lineEvents.dot = p.dot := by
  unfold Ppu.lineEvents
  split
  · rfl
  · split <;> rfl

/-- The wrap at 262 (R471) puts the scanline back in range. -/
theorem Ppu.scanline_lineEvents_le {p : Ppu} (h : p.scanline ≤ 262) : p.lineEvents.scanline ≤ 261 := by
  unfold Ppu.lineEvents
  split
  · next h241 => simp [h241]
  · split
    · simp
    · omega

@[simp] theorem Ppu.memories_advanceDot (p : Ppu) : p.advanceDot.memories = p.memories := by
  unfold Ppu.advanceDot
  split
  · exact Ppu.memories_lineEvents _
  · rfl

theorem Ppu.inv_advanceDot {p : Ppu} (h : p.Inv) : p.advanceDot.Inv := by
  rw [Ppu.inv_iff] at h ⊢
  obtain ⟨hmem, hline, hdot⟩ := h
  refine ⟨by rwa [Ppu.memories_advanceDot], ?_⟩
  unfold Ppu.advanceDot
  split
  · exact ⟨Ppu.scanline_lineEvents_le (Nat.succ_le_succ hline), by simp⟩
  · exact ⟨hline, by simp only; omega⟩

/-- The oracle touches the sprite bits and its own index only. -/
theorem Ppu.dotStep_eq (par : Params) (p : Ppu) :
    ∃ z o i, p.dotStep par = { p.advanceDot with spriteZero := z, overflow := o, oracleIndex := i } := by
  unfold Ppu.dotStep
  dsimp only
  split
  · exact ⟨_, _, _, rfl⟩
  · exact ⟨_, _, _, rfl⟩

@[simp] theorem Ppu.memories_dotStep (par : Params) (p : Ppu) : (p.dotStep par).memories = p.memories := by
  obtain ⟨z, o, i, he⟩ := Ppu.dotStep_eq par p
  rw [he]
  exact Ppu.memories_advanceDot p

theorem Ppu.inv_dotStep {par : Params} {p : Ppu} (h : p.Inv) : (p.dotStep par).Inv := by
  obtain ⟨z, o, i, he⟩ := Ppu.dotStep_eq par p
  rw [he]
  exact Ppu.inv_advanceDot h

@[simp] theorem Ppu.memories_dots (par : Params) (n : Nat) (p : Ppu) : (p.dots par n).memories = p.memories := by
  induction n generalizing p with
  | zero => rfl
  | succ n ih => exact (ih (p.dotStep par)).trans (Ppu.memories_dotStep par p)

theorem Ppu.inv_dots {par : Params} (n : Nat) {p : Ppu} (h : p.Inv) : (p.dots par n).Inv := by
  induction n generalizing p with
  | zero => exact h
  | succ n ih => exact ih (Ppu.inv_dotStep h)

/-! ## The step -/

/-- What a step that answers a next state did: nothing, the CPU being stopped, or an NMI entry, a fetch, an instruction and the bus
tick (60_exceptions.md R440). -/
theorem step_next_cases {s t : State} (h : step s = .next t) :
    t = s ∨ ∃ i u v, fetchInstr (serviceNmi (s.setCtx StepCtx.idle)) = .ok (i, u) ∧
      exec i (chargeBase i u) = .next v ∧ t = endStep v := by
  unfold step at h
  split at h
  · cases h
  · cases h; exact .inl rfl
  · cases h; exact .inl rfl
  · split at h
    · cases h
    · next i u hfetch =>
      unfold runInstr at h
      split at h
      · next v hexec => cases h; exact .inr ⟨i, u, v, hfetch, hexec, rfl⟩
      · cases h
      · cases h

/-- Everything a step does before its bus tick keeps what its parts keep. -/
theorem step_keeps {s t : State} (h : step s = .next t) : t = s ∨ ∃ v, Keeps s v ∧ t = endStep v := by
  obtain rfl | ⟨i, u, v, hfetch, hexec, rfl⟩ := step_next_cases h
  · exact .inl rfl
  · have hnmi : Keeps s (serviceNmi (s.setCtx StepCtx.idle)) := (keeps_setCtx s _).trans (keeps_serviceNmi _)
    have hcharge : Keeps u (chargeBase i u) := .of_sameOutside rfl
    exact .inr ⟨v, ((hnmi.trans (keeps_fetchInstr hfetch)).trans hcharge).trans (keeps_exec hexec), rfl⟩

/-- Settles O14: every part of a step keeps the memories, the dots of the bus tick keep the PPU's invariant, and the end of the
step clears its context. -/
theorem stepKeepsInvariant : Obligations.StepKeepsInvariant := by
  intro s t hinv hstep
  obtain rfl | ⟨v, hk, rfl⟩ := step_keeps hstep
  · exact hinv
  · obtain ⟨hram, hprg, hppu, -⟩ := hinv
    obtain ⟨hram', hppu'⟩ := hk.memInv ⟨hram, hppu⟩
    refine ⟨hram', ?_, Ppu.inv_dots (3 * v.ctx.cyc) hppu', rfl⟩
    show v.prg.wf = true ∧ v.prg.within v.prgSize.bytes = true
    rwa [hk.prg, hk.prgSize]

/-- Settles O15: no part of a step changes these items, and the bus tick only adds to the bus cycles. -/
theorem stepKeepsRoms : Obligations.StepKeepsRoms := by
  intro s t hstep
  obtain rfl | ⟨v, hk, rfl⟩ := step_keeps hstep
  · exact ⟨rfl, rfl, rfl, rfl, rfl, rfl, Nat.le_refl _⟩
  · have hmem := Ppu.memories_dots v.params (3 * v.ctx.cyc) v.ppu
    exact ⟨hk.prg, hk.prgSize, (congrArg Ppu.chr hmem).trans hk.chr, (congrArg Ppu.mirroring hmem).trans hk.mirroring,
      hk.params, hk.handler, hk.busCycles ▸ Nat.le_add_right _ _⟩

/-- Settles O8, by the run state. -/
theorem stoppedCpuTakesNoStep : Obligations.StoppedCpuTakesNoStep := by
  intro s
  refine ⟨?_, fun info hrun => by simp [step, hrun]⟩
  rintro (hrun | hrun)
  · simp [step, hrun]
  · simp [step, hrun]

/-- Settles O13: the memories of `State.reset` are empty. -/
theorem invariantAtReset : Obligations.InvariantAtReset := by
  unfold Obligations.InvariantAtReset
  decide

/-- Settles O35: a memory of zero bytes only is the empty one, so the reset vector reads 0x0000. -/
theorem resetStateIsAConstruction : Obligations.ResetStateIsAConstruction := by
  have hzero : ∀ n, Memory.ofBytesFrom 0 (List.replicate n 0x00) = [] := fun n => Memory.ofBytesFrom_zero n 0
  unfold Obligations.ResetStateIsAConstruction construct
  simp only [List.length_replicate, prgSizeOf, if_true, and_self, preReset, hzero]
  rfl

/-! ## P as a byte -/

theorem Flags.toNat_toByte (f : Flags) :
    f.toByte.toNat = 128 * f.n.toNat + 64 * f.v.toNat + 32 * f.u.toNat + 16 * f.b.toNat + 8 * f.d.toNat +
      4 * f.i.toNat + 2 * f.z.toNat + f.c.toNat := by
  have hn := f.n.toNat_le
  have hv := f.v.toNat_le
  have hu := f.u.toNat_le
  have hb := f.b.toNat_le
  have hd := f.d.toNat_le
  have hi := f.i.toNat_le
  have hz := f.z.toNat_le
  have hc := f.c.toNat_le
  rw [Flags.toByte, BitVec.toNat_ofNat, Nat.mod_eq_of_lt (by omega)]
  omega

@[simp] theorem Flags.ofByte_toByte (f : Flags) : Flags.ofByte f.toByte = f := by
  obtain ⟨c, z, i, d, b, u, v, n⟩ := f
  revert c z i d b u v n
  decide

@[simp] theorem Flags.toByte_ofByte (v : Byte) : (Flags.ofByte v).toByte = v := by
  revert v
  decide

theorem Flags.ofByte_or_0x30 (w : Byte) : Flags.ofByte (w ||| 0x30) = { Flags.ofByte w with u := true, b := true } := by
  simp [Flags.ofByte]

/-- The mask of an NMI entry and of a pull clears B and sets U (R454, R346). -/
theorem Flags.popped_eq (w : Byte) : Flags.popped w = { Flags.ofByte w with u := true, b := false } := by
  simp [Flags.popped, Flags.ofByte]

theorem Flags.phpByte_eq (f : Flags) : f.phpByte = { f with u := true, b := true }.toByte := by
  rw [← Flags.toByte_ofByte f.phpByte, Flags.phpByte, Flags.ofByte_or_0x30, Flags.ofByte_toByte]

theorem Flags.nmiByte_eq (f : Flags) : f.nmiByte = { f with u := true, b := false }.toByte := by
  have hflags : Flags.ofByte f.nmiByte = { f with u := true, b := false } :=
    (Flags.popped_eq f.toByte).trans (by rw [Flags.ofByte_toByte])
  rw [← hflags, Flags.toByte_ofByte]

/-- Settles O38: flags and bytes are the same data, and the masks set or clear the two bits they name. -/
theorem statusByte : Obligations.StatusByte :=
  ⟨fun f => ⟨f.toNat_toByte, f.ofByte_toByte, f.phpByte_eq, f.nmiByte_eq⟩,
    fun v => ⟨Flags.toByte_ofByte v, Flags.popped_eq v⟩⟩

end Sys2Proof.Machine
end

section
/-! Proofs of the memory family: what an access at each row of the region map does, what accesses leave unchanged, the PPU's address
space, and fetches that fault, for which the opcode map says how many operand bytes a row takes. -/

namespace Sys2Proof

/-! ## The row of an instruction's opcode byte -/

theorem Mode.operandBytes_le (m : Mode) : m.operandBytes ≤ 2 := by
  cases m <;> decide

theorem mem_of_codeFor {m : Mode} {rows : List (Mode × Byte)} {c : Byte} (h : codeFor m rows = some c) : (m, c) ∈ rows := by
  induction rows with
  | nil => cases h
  | cons q rest ih =>
    obtain ⟨m', c'⟩ := q
    unfold codeFor at h
    split at h
    · next hm => cases h; simp [hm]
    · exact List.mem_cons_of_mem _ (ih h)

/-- The opcode byte `c` has a row, of an instruction with `n` operand bytes (30_encoding.md R151, R156). -/
abbrev RowTakes (c : Byte) (n : Nat) : Prop := (opRow? c).map (·.mode.operandBytes) = some n

theorem Operand.length_bytes (o : Operand) : o.bytes.length = o.mode.operandBytes := by
  cases o <;> rfl

theorem rowTakes_of_codeFor {o : Operand} {rows : List (Mode × Byte)} {c : Byte} (h : codeFor o.mode rows = some c)
    (hrows : ∀ q ∈ rows, RowTakes q.2 q.1.operandBytes) : RowTakes c o.bytes.length := by
  rw [Operand.length_bytes]
  exact hrows _ (mem_of_codeFor h)

theorem rowTakes_of_codes {codes : List Byte} {code c : Byte} {n : Nat}
    (h : (if code ∈ codes then some code else none) = some c)
    (hcodes : ∀ d ∈ codes, RowTakes d n) : RowTakes c n := by
  split at h
  · next hmem => cases h; exact hcodes _ hmem
  · cases h

theorem rowTakes_nopMemoryCodes (m : Mode) : ∀ d ∈ nopMemoryCodes m, RowTakes d m.operandBytes := by
  cases m <;> decide

/-- The opcode map and the "Encoding" lines agree on how many operand bytes follow. -/
theorem rowTakes_opcode {i : Instr} {c : Byte} (h : i.opcode? = some c) : RowTakes c i.operandBytes.length := by
  cases i with
  | lda o | ldx o | ldy o | sta o | stx o | sty o | adc o | sbc o | and o | ora o | eor o | cmp o | cpx o | cpy o | bit o
  | inc o | dec o | asl o | lsr o | rol o | ror o | slo o | rla o | sre o | rra o | sax o | lax o | dcp o | isb o | ahx o =>
    exact rowTakes_of_codeFor h (by decide)
  | nopMemory code o => exact rowTakes_of_codes h (Operand.length_bytes o ▸ rowTakes_nopMemoryCodes o.mode)
  | anc code imm | nopImmediate code imm => exact rowTakes_of_codes (n := 1) h (by decide)
  | nopImplied code | jam code => exact rowTakes_of_codes (n := 0) h (by decide)
  | tax | tay | txa | tya | tsx | txs | inx | iny | dex | dey => cases h; rfl
  | bcc off | bcs off | beq off | bne off | bmi off | bpl off | bvc off | bvs off => cases h; rfl
  | jmp w | jmpInd w | jsr w | las w | shx w | shy w | tas w => cases h; rfl
  | rts | rti | brk | pha | php | pla | plp | clc | cld | cli | clv | sec | sed | sei | nop => cases h; rfl
  | alr imm | arr imm | axs imm | sbcEB imm | xaa imm | lxa imm => cases h; rfl

end Sys2Proof

namespace Sys2Proof.Machine

/-! ## The region map -/

theorem region_of_ram (size : PrgSize) {a : Word} (h : a.toNat < 0x2000) : region size a = .ram (a.toNat % 0x800) := by
  simp [region, h]

theorem region_of_register (size : PrgSize) {a : Word} (h : 0x2000 ≤ a.toNat) (h' : a.toNat < 0x4000) :
    region size a = .ppu (ppuRegAt a.toNat) := by
  simp [region, h', show ¬ a.toNat < 0x2000 by omega]

theorem region_of_oamDma (size : PrgSize) {a : Word} (h : a.toNat = 0x4014) : region size a = .oamDma := by
  simp [region, h]

theorem region_of_input (size : PrgSize) {a : Word} (h : a.toNat = 0x4016) : region size a = .input := by
  simp [region, h]

theorem region_of_silent (size : PrgSize) {a : Word} (h : 0x4000 ≤ a.toNat) (h' : a.toNat < 0x8000)
    (hdma : a.toNat ≠ 0x4014) (hinput : a.toNat ≠ 0x4016) :
    region size a = .audio ∨ region size a = .input2 ∨ region size a = .unmapped := by
  simp only [region, h', hdma, hinput, show ¬ a.toNat < 0x2000 by omega, show ¬ a.toNat < 0x4000 by omega, if_true, if_false]
  split_ifs <;> simp

theorem region_of_prg (size : PrgSize) {a : Word} (h : 0x8000 ≤ a.toNat) :
    region size a = .prg ((a.toNat - 0x8000) % size.bytes) := by
  have hge : ∀ n ≤ 0x8000, ¬ a.toNat < n := by omega
  simp [region, hge, show a.toNat ≠ 0x4014 ∧ a.toNat ≠ 0x4015 ∧ a.toNat ≠ 0x4016 ∧ a.toNat ≠ 0x4017 by omega]

theorem lt_of_region_eq_ram {size : PrgSize} {a : Word} {i : Nat} (h : region size a = .ram i) : a.toNat < 0x2000 := by
  by_contra hge
  simp only [region, hge, if_false] at h
  split_ifs at h

/-- The rows of the region map by what an access there does: the audio, second input and unmapped addresses are one. -/
theorem address_cases (a : Word) :
    a.toNat < 0x2000 ∨ (0x2000 ≤ a.toNat ∧ a.toNat < 0x4000) ∨
    (0x4000 ≤ a.toNat ∧ a.toNat < 0x8000 ∧ a.toNat ≠ 0x4014 ∧ a.toNat ≠ 0x4016) ∨
    a.toNat = 0x4014 ∨ a.toNat = 0x4016 ∨ 0x8000 ≤ a.toNat := by
  omega

/-! ## Accesses, by region -/

theorem memRead_of_ram {a : Word} (s : State) (h : a.toNat < 0x2000) :
    memRead a s = .ok (s.ram.read (a.toNat % 0x800), s) := by
  simp [memRead, readFault?, readByte, afterRead, region_of_ram _ h]

theorem memWrite_of_ram {a : Word} (v : Byte) (s : State) (h : a.toNat < 0x2000) :
    memWrite a v s = .ok (s.setRam (s.ram.write (a.toNat % 0x800) v)) := by
  simp [memWrite, writeFault?, region_of_ram _ h]

theorem memRead_of_oamDma {a : Word} (s : State) (h : a.toNat = 0x4014) : memRead a s = .ok (0x00, s) := by
  simp [memRead, readFault?, readByte, afterRead, region_of_oamDma _ h]

theorem memWrite_of_oamDma {a : Word} (v : Byte) (s : State) (h : a.toNat = 0x4014) : memWrite a v s = oamDma v s := by
  simp [memWrite, writeFault?, region_of_oamDma _ h]

theorem memRead_of_input {a : Word} (s : State) (h : a.toNat = 0x4016) :
    memRead a s = .ok (Config.inputByte s.input s.draws, s.draw) := by
  simp [memRead, readFault?, readByte, afterRead, region_of_input _ h]

theorem memWrite_of_input {a : Word} (v : Byte) (s : State) (h : a.toNat = 0x4016) :
    memWrite a v s = .ok (s.inputWrite v) := by
  simp [memWrite, writeFault?, region_of_input _ h]

theorem memRead_of_silent {a : Word} (s : State) (h : 0x4000 ≤ a.toNat) (h' : a.toNat < 0x8000)
    (hdma : a.toNat ≠ 0x4014) (hinput : a.toNat ≠ 0x4016) : memRead a s = .ok (0x00, s) := by
  rcases region_of_silent s.prgSize h h' hdma hinput with hreg | hreg | hreg
  all_goals simp [memRead, readFault?, readByte, afterRead, hreg]

theorem memWrite_of_silent {a : Word} (v : Byte) (s : State) (h : 0x4000 ≤ a.toNat) (h' : a.toNat < 0x8000)
    (hdma : a.toNat ≠ 0x4014) (hinput : a.toNat ≠ 0x4016) : memWrite a v s = .ok s := by
  rcases region_of_silent s.prgSize h h' hdma hinput with hreg | hreg | hreg
  all_goals simp [memWrite, writeFault?, hreg]

theorem memRead_of_prg {a : Word} (s : State) (h : 0x8000 ≤ a.toNat) :
    memRead a s = .ok (s.prg.read ((a.toNat - 0x8000) % s.prgSize.bytes), s) := by
  simp [memRead, readFault?, readByte, afterRead, region_of_prg _ h]

theorem memWrite_of_prg {a : Word} (v : Byte) (s : State) (h : 0x8000 ≤ a.toNat) :
    memWrite a v s = .error (faultAt (.romWriteAttempt .cpu a v) s) := by
  simp [memWrite, writeFault?, region_of_prg _ h, raise_eq_faultAt]

theorem readByte_of_ram {b : Word} (s : State) (h : b.toNat < 0x2000) : readByte b s = s.ram.read (b.toNat % 0x800) := by
  simp [readByte, region_of_ram _ h]

/-- RAM is seen at its own addresses only. -/
theorem readByte_setRam_of_not_ram {b : Word} (s : State) (m : Memory) (h : ¬ b.toNat < 0x2000) :
    readByte b (s.setRam m) = readByte b s := by
  unfold readByte
  rw [State.setRam_prgSize]
  cases hreg : region s.prgSize b with
  | ram i => exact absurd (lt_of_region_eq_ram hreg) h
  | ppu r => cases r <;> rfl
  | audio | oamDma | input | input2 | unmapped | prg i => rfl

/-- What any address reads after a write to RAM: the byte written at its mirrors, and elsewhere as before. -/
theorem readByte_setRam_write {a : Word} (b : Word) (v : Byte) (s : State) (h : a.toNat < 0x2000) :
    readByte b (s.setRam (s.ram.write (a.toNat % 0x800) v)) = if SameRamByte a b then v else readByte b s := by
  by_cases hb : b.toNat < 0x2000
  · simp [readByte_of_ram _ hb, Memory.read_write, SameRamByte, h, hb, eq_comm]
  · rw [readByte_setRam_of_not_ram s _ hb, if_neg fun hsame => hb hsame.2.1]

theorem PrgSize.bytes_eq (size : PrgSize) : size.bytes = if size = .k16 then 16384 else 32768 := by
  cases size <;> rfl

/-- Settles O16, by the region of the address. -/
theorem ramRomAndUnmapped : Obligations.RamRomAndUnmapped := by
  intro a v s
  refine ⟨fun hram => ?_, fun hlow hhigh hinput => ?_, fun hprg => ?_⟩
  · exact ⟨memRead_of_ram s hram, memWrite_of_ram v s hram, fun b => readByte_setRam_write b v s hram⟩
  · by_cases hdma : a.toNat = 0x4014
    · exact ⟨memRead_of_oamDma s hdma, absurd hdma⟩
    · exact ⟨memRead_of_silent s hlow hhigh hdma hinput, fun _ => memWrite_of_silent v s hlow hhigh hdma hinput⟩
  · rw [← PrgSize.bytes_eq]
    exact ⟨memRead_of_prg s hprg, memWrite_of_prg v s hprg⟩

/-- Settles O17: 0x4016 is the input row of the region map. -/
theorem inputDevicePort : Obligations.InputDevicePort := fun v s =>
  ⟨memRead_of_input s rfl, memWrite_of_input v s rfl⟩

/-! ## What a read leaves unchanged -/

/-- Only a PPU register or the input device changes by a read. -/
theorem eq_of_memRead_of_plain {a : Word} {b : Byte} {s t : State} (h : memRead a s = .ok (b, t))
    (ha : a.toNat < 0x2000 ∨ (0x4000 ≤ a.toNat ∧ a.toNat ≠ 0x4016)) : t = s := by
  rcases address_cases a with hram | hppu | ⟨hlow, hhigh, hdma, hinput⟩ | hdma | hinput | hprg
  · rw [memRead_of_ram s hram] at h; cases h; rfl
  · omega
  · rw [memRead_of_silent s hlow hhigh hdma hinput] at h; cases h; rfl
  · rw [memRead_of_oamDma s hdma] at h; cases h; rfl
  · omega
  · rw [memRead_of_prg s hprg] at h; cases h; rfl

theorem storeFrame_afterRead (a b : Word) (s : State) : StoreFrame b s (afterRead a s) :=
  ⟨sameCore_afterRead a s, fun c hc _ => readByte_of_placeable hc (by simp) (by simp) fun _ => by simp⟩

/-- Settles O18: the state after a read differs in the fields its register's effect writes only. -/
theorem readFrame : Obligations.ReadFrame := by
  intro a b s t h
  have hplain := eq_of_memRead_of_plain h
  obtain ⟨-, -, rfl⟩ := memRead_eq_ok h
  refine ⟨storeFrame_afterRead a _ s, ?_⟩
  simpa using hplain

/-! ## What a write leaves unchanged -/

/-- What reading any byte and storing any byte at the OAM cursor keeps, a copy of OAM DMA keeps. -/
theorem dmaCopy_keeps {α : Type} (f : State → α)
    (hf : ∀ a b u, f ((afterRead a u).setPpu ((afterRead a u).ppu.writeOamData b)) = f u)
    {pg : Byte} {n : Nat} {s t : State} (h : dmaCopy pg n s = .ok t) : f t = f s := by
  induction n generalizing s with
  | zero => cases h; rfl
  | succ n ih =>
    unfold dmaCopy at h
    by_cases hr : ReadOk (w16 pg (BitVec.ofNat 8 (255 - n))) s
    · rw [dmaByte_ok hr] at h
      exact (ih h).trans (hf _ _ s)
    · rw [dmaByte, memRead_fault hr] at h
      cases h

/-- An OAM DMA that completes: the copy, then its cycles (60_exceptions.md R490). -/
theorem oamDma_eq_ok {pg : Byte} {s t : State} (h : oamDma pg s = .ok t) :
    ∃ u, dmaCopy pg 256 s = .ok u ∧ t = u.tick s.params.dmaCycles := by
  unfold oamDma at h
  split at h
  · cases h
  · next u hu =>
    cases h
    exact ⟨u, hu, by rw [dmaCopy_keeps (·.params) (by simp) hu]⟩

@[simp] theorem Ppu.writeScroll_vram (p : Ppu) (shared : Bool) (v : Byte) : (p.writeScroll shared v).vram = p.vram := by
  obtain ⟨_, _, _, _, he⟩ := Ppu.writeScroll_eq p shared v
  rw [he]

@[simp] theorem Ppu.writeScroll_palette (p : Ppu) (shared : Bool) (v : Byte) : (p.writeScroll shared v).palette = p.palette := by
  obtain ⟨_, _, _, _, he⟩ := Ppu.writeScroll_eq p shared v
  rw [he]

@[simp] theorem Ppu.writeScroll_oam (p : Ppu) (shared : Bool) (v : Byte) : (p.writeScroll shared v).oam = p.oam := by
  obtain ⟨_, _, _, _, he⟩ := Ppu.writeScroll_eq p shared v
  rw [he]

@[simp] theorem Ppu.writeData_oam (p : Ppu) (v : Byte) : (p.writeData v).oam = p.oam := by
  obtain ⟨_, _, _, he⟩ := Ppu.writeData_eq p v
  rw [he]

/-- The offset of a register in its group of eight addresses (20_memory.md R84). -/
def PpuReg.offset : PpuReg → Nat
  | .control => 0
  | .mask => 1
  | .status => 2
  | .oamAddress => 3
  | .oamData => 4
  | .scroll => 5
  | .address => 6
  | .data => 7

theorem offset_ppuRegAt (n : Nat) : (ppuRegAt n).offset = n % 8 := by
  have hlt : n % 8 < 8 := Nat.mod_lt _ (by omega)
  unfold ppuRegAt
  generalize n % 8 = m at hlt ⊢
  match m, hlt with
  | 0, _ | 1, _ | 2, _ | 3, _ | 4, _ | 5, _ | 6, _ | 7, _ => rfl

/-- What a CPU write that completes did (20_memory.md R82 to R91, R98). -/
inductive WriteShape (a : Word) (v : Byte) (s : State) : State → Prop
  | ram (h : a.toNat < 0x2000) : WriteShape a v s (s.setRam (s.ram.write (a.toNat % 0x800) v))
  | register (h : 0x2000 ≤ a.toNat) (h' : a.toNat < 0x4000) {p : Ppu}
      (hdata : a.toNat % 8 ≠ 7 → p.vram = s.ppu.vram ∧ p.palette = s.ppu.palette)
      (hoam : a.toNat % 8 ≠ 4 → p.oam = s.ppu.oam) : WriteShape a v s (s.setPpu p)
  | silent (h : 0x4000 ≤ a.toNat) (hdma : a.toNat ≠ 0x4014) (hinput : a.toNat ≠ 0x4016) : WriteShape a v s s
  | oamDma (h : a.toNat = 0x4014) {u : State} (hcopy : dmaCopy v 256 s = .ok u) :
      WriteShape a v s (u.tick s.params.dmaCycles)
  | input (h : a.toNat = 0x4016) : WriteShape a v s (s.inputWrite v)

theorem writeShape_register {a : Word} {v : Byte} {s t : State} (hlow : 0x2000 ≤ a.toNat) (hhigh : a.toNat < 0x4000)
    (h : memWrite a v s = .ok t) : WriteShape a v s t := by
  unfold memWrite at h
  rw [region_of_register _ hlow hhigh] at h
  split at h
  · cases h
  · have hoffset := offset_ppuRegAt a.toNat
    generalize ppuRegAt a.toNat = r at h hoffset
    cases r with
    | data =>
      cases h
      exact .register hlow hhigh (absurd hoffset.symm) fun _ => Ppu.writeData_oam s.ppu v
    | oamData =>
      cases h
      exact .register hlow hhigh (fun _ => ⟨rfl, rfl⟩) (absurd hoffset.symm)
    | scroll =>
      cases h
      exact .register hlow hhigh (fun _ => ⟨Ppu.writeScroll_vram .., Ppu.writeScroll_palette ..⟩) fun _ => Ppu.writeScroll_oam ..
    | status =>
      cases h
      exact .register (p := s.ppu) hlow hhigh (fun _ => ⟨rfl, rfl⟩) fun _ => rfl
    | control | mask | oamAddress | address =>
      cases h
      exact .register hlow hhigh (fun _ => ⟨rfl, rfl⟩) fun _ => rfl

theorem writeShape_memWrite {a : Word} {v : Byte} {s t : State} (h : memWrite a v s = .ok t) : WriteShape a v s t := by
  rcases address_cases a with hram | ⟨hlow, hhigh⟩ | ⟨hlow, hhigh, hdma, hinput⟩ | hdma | hinput | hprg
  · rw [memWrite_of_ram v s hram] at h; cases h; exact .ram hram
  · exact writeShape_register hlow hhigh h
  · rw [memWrite_of_silent v s hlow hhigh hdma hinput] at h; cases h; exact .silent hlow hdma hinput
  · rw [memWrite_of_oamDma v s hdma] at h
    obtain ⟨u, hcopy, rfl⟩ := oamDma_eq_ok h
    exact .oamDma hdma hcopy
  · rw [memWrite_of_input v s hinput] at h; cases h; exact .input hinput
  · rw [memWrite_of_prg v s hprg] at h; cases h

/-- Settles O19, by what the write did. -/
theorem writeFrame : Obligations.WriteFrame := by
  intro a v s t h
  refine ⟨storeFrame_memWrite h, ?_⟩
  cases writeShape_memWrite h with
  | ram hram =>
    exact ⟨by simp [show a.toNat ≠ 0x4014 by omega], fun hge => by omega, fun _ => ⟨rfl, rfl⟩, fun _ => ⟨rfl, rfl⟩,
      fun _ _ => rfl, fun _ _ => rfl⟩
  | register hlow hhigh hdata hoam =>
    exact ⟨by simp [show a.toNat ≠ 0x4014 by omega], fun _ => rfl, fun _ => ⟨rfl, rfl⟩,
      fun hne => hdata fun heq => hne ⟨hlow, hhigh, heq⟩, fun hne _ => hoam fun heq => hne ⟨hlow, hhigh, heq⟩,
      fun _ hout => by omega⟩
  | silent hlow hdma hinput =>
    exact ⟨by simp [hdma], fun _ => rfl, fun _ => ⟨rfl, rfl⟩, fun _ => ⟨rfl, rfl⟩, fun _ _ => rfl, fun _ _ => rfl⟩
  | oamDma hdma hcopy =>
    have hctx := dmaCopy_keeps (·.ctx) (by simp) hcopy
    have hram := ram_dmaCopy hcopy
    have hinput := dmaCopy_keeps (fun u => (u.input, u.inputWrites)) (by simp) hcopy
    have hppu := dmaCopy_keeps (fun u => (u.ppu.vram, u.ppu.palette)) (by simp [Ppu.writeOamData]) hcopy
    exact ⟨by simp [hdma, State.tick, hctx], fun _ => hram, fun _ => Prod.mk.inj hinput,
      fun _ => Prod.mk.inj hppu, fun _ hne => absurd hdma hne, absurd hdma⟩
  | input hinput =>
    exact ⟨by simp [hinput], fun _ => rfl, absurd hinput, fun _ => ⟨rfl, rfl⟩, fun _ _ => rfl, fun _ _ => rfl⟩

/-! ## The PPU's address space -/

/-- The offset in the nametables of an address of 0x2000 to 0x3EFF and of its mirror 0x1000 above (20_memory.md R113). -/
theorem nametable_offset {a : BitVec 14} (h : 0x2000 ≤ a.toNat) :
    (a &&& 0x2FFF).toNat - 0x2000 = if a.toNat < 0x3000 then a.toNat - 0x2000 else a.toNat - 0x3000 := by
  have hlt := a.isLt
  have hand : (a &&& 0x2FFF).toNat = a.toNat / 0x2000 * 0x2000 + a.toNat % 0x1000 := and_2FFF hlt
  split <;> omega

/-- Settles O25, by the ranges of the PPU's address map and the mirroring. -/
theorem ppuAddressSpace : Obligations.PpuAddressSpace := by
  intro a val p
  refine ⟨fun hchr => ?_, fun hlow hhigh hfour => ?_, fun hlow hhigh hmir => ?_, fun hpal => ?_⟩
  · simp [Ppu.read, Ppu.write, hchr]
  · simp [Ppu.read, Ppu.write, hfour, hhigh, show ¬ a.toNat ≤ 0x1FFF by omega]
  · simp only [Ppu.read, Ppu.write, ntIndex, nametable_offset hlow, hhigh, show ¬ a.toNat ≤ 0x1FFF by omega, if_true, if_false]
    cases hm : p.mirroring with
    | vertical => simp [ntBank]
    | horizontal => simp [ntBank, Nat.div_div_eq_div_mul]
    | fourScreen => exact absurd hm hmir
  · show p.read a = p.palette.read (palIndex a) ∧ p.write a val = { p with palette := p.palette.write (palIndex a) val }
    simp [Ppu.read, Ppu.write, show ¬ a.toNat ≤ 0x1FFF by omega, show ¬ a.toNat ≤ 0x3EFF by omega]

/-! ## Fetches that fault -/

theorem fetchable_setCtx (n : Nat) (s : State) (c : StepCtx) : Fetchable n (s.setCtx c) ↔ Fetchable n s := by
  induction n generalizing s with
  | zero => exact Iff.rfl
  | succ n ih => rw [Fetchable, Fetchable, pastByte_setCtx, ih]; rfl

theorem afterFetches_setCtx (n : Nat) (s : State) (c : StepCtx) : afterFetches n (s.setCtx c) = (afterFetches n s).setCtx c := by
  induction n generalizing s with
  | zero => rfl
  | succ n ih => rw [afterFetches, afterFetches, pastByte_setCtx, ih]

theorem fetchOperands_fault {r : OpRow} {j : Nat} {s : State} (hj : j < r.mode.operandBytes) (hf : Fetchable j s)
    (hr : ¬ ReadOk (afterFetches j s).pc (afterFetches j s)) :
    fetchOperands r s = .error (faultAt (.ppuWriteOnlyRead (afterFetches j s).pc) (afterFetches j s)) := by
  have hle := Mode.operandBytes_le r.mode
  unfold fetchOperands
  generalize r.mode.operandBytes = n at hj hle
  match n, j, hj, hle, hf, hr with
  | 1, 0, _, _, _, hr => simp only [fetch8_fault (s := s) hr]; rfl
  | 2, 0, _, _, _, hr => simp only [fetch8_fault (s := s) hr]; rfl
  | 2, 1, _, _, hf, hr => simp only [fetch8_ok hf.1, fetch8_fault (s := pastByte s) hr]; rfl

theorem fetchInstr_opcode_fault {u : State} (h : ¬ ReadOk u.pc u) :
    fetchInstr u = .error (faultAt (.ppuWriteOnlyRead u.pc) (beginInstr u)) := by
  rw [fetchInstr, fetch8_fault (s := beginInstr u) h]
  rfl

/-- The step context at the operand fetches: the instruction's address and its opcode byte noted (60_exceptions.md R430). -/
def operandCtx (u : State) : StepCtx := ⟨u.ctx.cyc, u.pc, some (readByte u.pc u)⟩

theorem fetchInstr_of_opcode {u : State} {r : OpRow} (h : ReadOk u.pc u) (hrow : opRow? (readByte u.pc u) = some r) :
    fetchInstr u = fetchOperands r ((pastByte u).setCtx (operandCtx u)) := by
  have hbegin : fetch8 (beginInstr u) = .ok (readByte u.pc u, pastByte (beginInstr u)) := fetch8_ok h
  have hnote : noteOpcode (readByte u.pc u) (pastByte (beginInstr u)) = (pastByte u).setCtx (operandCtx u) := by
    rw [beginInstr, pastByte_setCtx]
    rfl
  simp only [fetchInstr, hbegin, hrow, hnote]

/-- A running step whose fetch faults. -/
theorem step_of_fetchInstr_error {s : State} {f : Fault} (hrun : s.cpuRun = .running)
    (h : fetchInstr (serviceNmi (s.setCtx StepCtx.idle)) = .error f) : step s = .fault f := by
  simp [step, hrun, h]

/-- Settles O11: the fetch that faults is the opcode's, or one of the operand bytes' that the row of the opcode takes. -/
theorem fetchFromWriteOnlyRegisterFaults : Obligations.FetchFromWriteOnlyRegisterFaults := by
  intro s hrun u
  refine ⟨fun hfault => step_of_fetchInstr_error hrun (fetchInstr_opcode_fault hfault), ?_⟩
  intro i k _ hcode hpos hlt hfetch t hfault
  obtain ⟨j, rfl⟩ : ∃ j, k = j + 1 := ⟨k - 1, by omega⟩
  obtain ⟨hop, hrest⟩ := hfetch
  obtain ⟨r, hrow, hbytes⟩ := Option.map_eq_some_iff.mp (rowTakes_opcode hcode)
  have hj : j < r.mode.operandBytes := by
    rw [hbytes]
    unfold Instr.length at hlt
    omega
  have hctx := afterFetches_setCtx j (pastByte u) (operandCtx u)
  have herror := fetchOperands_fault hj ((fetchable_setCtx j _ (operandCtx u)).mpr hrest) (hctx ▸ hfault)
  rw [hctx] at herror
  exact step_of_fetchInstr_error hrun ((fetchInstr_of_opcode hop hrow).trans herror)

end Sys2Proof.Machine
end

section
/-! Proofs of the encoding family: what the decoder reads and what the encoder writes, both said through the row of the opcode
byte. -/

namespace Sys2Proof.Laws

theorem WfEncodes.all : ∀ i : Instr, WfEncodes.Statement i
  | .lda o => lda o | .ldx o => ldx o | .ldy o => ldy o | .sta o => sta o | .stx o => stx o | .sty o => sty o | .tax => tax
  | .tay => tay | .txa => txa | .tya => tya | .tsx => tsx | .txs => txs | .adc o => adc o | .sbc o => sbc o | .and o => and o
  | .ora o => ora o | .eor o => eor o | .cmp o => cmp o | .cpx o => cpx o | .cpy o => cpy o | .bit o => bit o
  | .inc o => inc o | .dec o => dec o | .inx => inx | .iny => iny | .dex => dex | .dey => dey | .asl o => asl o
  | .lsr o => lsr o | .rol o => rol o | .ror o => ror o | .bcc off => bcc off | .bcs off => bcs off | .beq off => beq off
  | .bne off => bne off | .bmi off => bmi off | .bpl off => bpl off | .bvc off => bvc off | .bvs off => bvs off
  | .jmp target => jmp target | .jmpInd ptr => jmpInd ptr | .jsr target => jsr target | .rts => rts | .rti => rti
  | .brk => brk | .pha => pha | .php => php | .pla => pla | .plp => plp | .clc => clc | .cld => cld | .cli => cli
  | .clv => clv | .sec => sec | .sed => sed | .sei => sei | .nop => nop | .slo o => slo o | .rla o => rla o | .sre o => sre o
  | .rra o => rra o | .sax o => sax o | .lax o => lax o | .dcp o => dcp o | .isb o => isb o | .anc code imm => anc code imm
  | .alr imm => alr imm | .arr imm => arr imm | .axs imm => axs imm | .sbcEB imm => sbcEB imm | .las base => las base
  | .xaa imm => xaa imm | .lxa imm => lxa imm | .ahx o => ahx o | .shx base => shx base | .shy base => shy base
  | .tas base => tas base | .nopImmediate code imm => nopImmediate code imm | .nopMemory code o => nopMemory code o
  | .nopImplied code => nopImplied code | .jam code => jam code

end Sys2Proof.Laws

namespace Sys2Proof

/-! ## Operand bytes (30_encoding.md R151, R153) -/

@[simp] theorem lo_w16 (h l : Byte) : lo (w16 h l) = l := by
  apply BitVec.eq_of_toNat_eq
  have := l.isLt
  rw [Machine.lo_toNat, Machine.w16_toNat]
  omega

@[simp] theorem hi_w16 (h l : Byte) : hi (w16 h l) = h := by
  apply BitVec.eq_of_toNat_eq
  have := l.isLt
  rw [Machine.hi_toNat, Machine.w16_toNat]
  omega

/-- The operand form that holds the operand bytes of a mode. A branch offset is held as an immediate, the pointer of an indirect
JMP as an address. -/
def Mode.operand (m : Mode) (b1 b2 : Byte) : Operand :=
  match m with
  | .implied | .accumulator => .acc
  | .immediate | .relative => .imm b1
  | .zeroPage => .zp b1
  | .zeroPageX => .zpX b1
  | .zeroPageY => .zpY b1
  | .absolute | .indirectJmp => .abs (w16 b2 b1)
  | .absoluteX => .absX (w16 b2 b1)
  | .absoluteY => .absY (w16 b2 b1)
  | .indirectX => .indX b1
  | .indirectY => .indY b1

/-- What a row builds of a list of operand bytes: a byte that the list lacks is 0, as in `OpRow.assemble`. -/
def ofBytes {α : Type} (f : Byte → Byte → α) (bs : List Byte) : α := f (bs.getD 0 0) (bs.getD 1 0)

theorem ofBytes_word (w : Word) : ofBytes (fun b1 b2 => w16 b2 b1) [lo w, hi w] = w := Machine.w16_hi_lo w

/-- An operand form is read back from its own bytes. -/
theorem Operand.ofBytes_bytes (o : Operand) : ofBytes o.mode.operand o.bytes = o := by
  cases o with
  | acc | imm b | zp z | zpX z | zpY z | indX z | indY z => rfl
  | abs w => exact congrArg Operand.abs (ofBytes_word w)
  | absX w => exact congrArg Operand.absX (ofBytes_word w)
  | absY w => exact congrArg Operand.absY (ofBytes_word w)

/-- The bytes of the operand form that a mode's operand bytes make are those bytes. -/
theorem Mode.bytes_ofBytes {m : Mode} {bs : List Byte} (h : bs.length = m.operandBytes) : (ofBytes m.operand bs).bytes = bs := by
  cases m with
  | implied | accumulator => exact (List.eq_nil_of_length_eq_zero h).symm
  | immediate | zeroPage | zeroPageX | zeroPageY | indirectX | indirectY | relative =>
    obtain ⟨b1, rfl⟩ := List.length_eq_one_iff.mp h
    rfl
  | absolute | absoluteX | absoluteY | indirectJmp =>
    obtain ⟨b1, b2, rfl⟩ := List.length_eq_two.mp h
    simp [ofBytes, Mode.operand, Operand.bytes]

/-! ## What the decoder reads -/

/-- A row reads as many operand bytes as its mode takes. -/
theorem OpRow.assemble_eq_ok {r : OpRow} {op : Byte} {bytes rest : List Byte} {i : Instr} :
    r.assemble op bytes = .ok (i, rest) ↔
      ∃ bs, bs.length = r.mode.operandBytes ∧ bytes = bs ++ rest ∧ i = ofBytes r.build bs := by
  unfold OpRow.assemble
  constructor
  · intro h
    split at h
    · next hn => cases h; exact ⟨[], hn.symm, rfl, rfl⟩
    · next b1 _ hn => cases h; exact ⟨[b1], hn.symm, rfl, rfl⟩
    · next b1 b2 _ hn => cases h; exact ⟨[b1, b2], hn.symm, rfl, rfl⟩
    · cases h
  · rintro ⟨bs, hlen, rfl, rfl⟩
    have hle := r.mode.operandBytes_le
    rw [← hlen] at hle ⊢
    match bs, hle with
    | [], _ | [_], _ | [_, _], _ => rfl

/-- The decoder reads an opcode byte and the operand bytes of its row. -/
theorem decode_eq_ok {bytes rest : List Byte} {i : Instr} :
    decode bytes = .ok (i, rest) ↔
      ∃ op r bs, opRow? op = some r ∧ bs.length = r.mode.operandBytes ∧ bytes = op :: (bs ++ rest) ∧ i = ofBytes r.build bs := by
  constructor
  · intro h
    unfold decode at h
    split at h
    · cases h
    · next op tail =>
      split at h
      · cases h
      · next r hrow =>
        obtain ⟨bs, hlen, rfl, hi⟩ := OpRow.assemble_eq_ok.mp h
        exact ⟨op, r, bs, hrow, hlen, rfl, hi⟩
  · rintro ⟨op, r, bs, hrow, hlen, rfl, hi⟩
    simp only [decode, hrow]
    exact OpRow.assemble_eq_ok.mpr ⟨bs, hlen, rfl, hi⟩

/-! ## What the encoder writes -/

theorem wellFormed_iff_opcode {i : Instr} : i.wellFormed = true ↔ ∃ c, i.opcode? = some c := by
  obtain ⟨hwf, -⟩ := Laws.WfEncodes.all i
  rw [hwf, Option.isSome_iff_exists]

theorem encode_of_opcode {i : Instr} {c : Byte} (h : i.opcode? = some c) : encode i = c :: i.operandBytes := by
  simp [encode, h]

/-! ## The opcode map and the "Encoding" lines agree -/

/-- The row of opcode byte `c` builds `f` of its operand bytes. -/
abbrev RowBuilds (c : Byte) (f : Byte → Byte → Instr) : Prop := (opRow? c).map OpRow.build = some f

/-- The row of opcode byte `c` makes `i` again of the operand bytes of `i`. -/
abbrev RowMakes (c : Byte) (i : Instr) : Prop := (opRow? c).map (fun r => ofBytes r.build i.operandBytes) = some i

theorem RowBuilds.makes {c : Byte} {f : Byte → Byte → Instr} {i : Instr} (h : RowBuilds c f)
    (hi : ofBytes f i.operandBytes = i) : RowMakes c i := by
  obtain ⟨r, hrow, rfl⟩ := Option.map_eq_some_iff.mp h
  simp [RowMakes, hrow, hi]

/-- An instruction whose one operand is a 16-bit word. -/
theorem RowBuilds.makes_word {c : Byte} {k : Word → Instr} (h : RowBuilds c fun b1 b2 => k (w16 b2 b1)) (w : Word)
    (hbytes : (k w).operandBytes = [lo w, hi w]) : RowMakes c (k w) :=
  h.makes (hbytes ▸ congrArg k (ofBytes_word w))

/-- An instruction with an operand form. -/
theorem RowBuilds.makes_operand {c : Byte} {k : Operand → Instr} {o : Operand}
    (h : RowBuilds c fun b1 b2 => k (o.mode.operand b1 b2)) (hbytes : (k o).operandBytes = o.bytes) : RowMakes c (k o) :=
  h.makes (hbytes ▸ congrArg k o.ofBytes_bytes)

/-- An instruction with several modes: the map's row of every mode's opcode byte builds `k` of the mode's operand. -/
theorem rowMakes_of_codeFor {k : Operand → Instr} {o : Operand} {rows : List (Mode × Byte)} {c : Byte}
    (h : codeFor o.mode rows = some c) (hbytes : (k o).operandBytes = o.bytes)
    (hrows : rows.map (fun q => (opRow? q.2).map OpRow.build) = rows.map fun q => some fun b1 b2 => k (q.1.operand b1 b2)) :
    RowMakes c (k o) :=
  RowBuilds.makes_operand (List.map_inj_left.mp hrows _ (mem_of_codeFor h)) hbytes

/-- An instruction that carries its opcode byte, one of `codes`. -/
theorem rowMakes_of_codes {codes : List Byte} {code c : Byte} {i : Instr} {f : Byte → Byte → Byte → Instr}
    (h : (if code ∈ codes then some code else none) = some c) (hi : ofBytes (f code) i.operandBytes = i)
    (hcodes : codes.map (fun d => (opRow? d).map OpRow.build) = codes.map fun d => some (f d)) : RowMakes c i := by
  split at h
  · next hmem => cases h; exact RowBuilds.makes (List.map_inj_left.mp hcodes _ hmem) hi
  · cases h

theorem rowBuilds_nopMemoryCodes (m : Mode) :
    (nopMemoryCodes m).map (fun d => (opRow? d).map OpRow.build) =
      (nopMemoryCodes m).map fun d => some fun b1 b2 => .nopMemory d (m.operand b1 b2) := by
  cases m <;> rfl

/-- The opcode map's row of an instruction's opcode byte makes the instruction of its operand bytes (R153, R156). -/
theorem rowMakes_opcode {i : Instr} {c : Byte} (h : i.opcode? = some c) : RowMakes c i := by
  cases i with
  | lda o | ldx o | ldy o | sta o | stx o | sty o | adc o | sbc o | and o | ora o | eor o | cmp o | cpx o | cpy o | bit o
  | inc o | dec o | asl o | lsr o | rol o | ror o | slo o | rla o | sre o | rra o | sax o | lax o | dcp o | isb o | ahx o =>
    exact rowMakes_of_codeFor h rfl rfl
  | nopMemory code o =>
    exact rowMakes_of_codes (f := fun d b1 b2 => .nopMemory d (o.mode.operand b1 b2)) h
      (congrArg (Instr.nopMemory code) o.ofBytes_bytes) (rowBuilds_nopMemoryCodes o.mode)
  | anc code imm => exact rowMakes_of_codes (f := fun d b1 _ => .anc d b1) h rfl rfl
  | nopImmediate code imm => exact rowMakes_of_codes (f := fun d b1 _ => .nopImmediate d b1) h rfl rfl
  | nopImplied code => exact rowMakes_of_codes (f := fun d _ _ => .nopImplied d) h rfl rfl
  | jam code => exact rowMakes_of_codes (f := fun d _ _ => .jam d) h rfl rfl
  | jmp w | jmpInd w | jsr w | las w | shx w | shy w | tas w => cases h; exact RowBuilds.makes_word rfl w rfl
  | tax | tay | txa | tya | tsx | txs | inx | iny | dex | dey => cases h; rfl
  | bcc off | bcs off | beq off | bne off | bmi off | bpl off | bvc off | bvs off => cases h; rfl
  | rts | rti | brk | pha | php | pla | plp | clc | cld | cli | clv | sec | sed | sei | nop => cases h; rfl
  | alr imm | arr imm | axs imm | sbcEB imm | xaa imm | lxa imm => cases h; rfl

/-- A byte is a row and a column of the opcode map (R155). -/
theorem forall_byte_of_nibbles {P : Byte → Prop} (h : ∀ row < 16, ∀ col < 16, P (.ofNat 8 (16 * row + col))) (op : Byte) :
    P op := by
  have hop := h (op.toNat / 16) (by have := op.isLt; omega) (op.toNat % 16) (Nat.mod_lt _ (by decide))
  rwa [Nat.div_add_mod, BitVec.ofNat_toNat, BitVec.setWidth_eq] at hop

/-- Every opcode byte has a row (R156). -/
theorem opRow?_total (op : Byte) : ∃ r, opRow? op = some r :=
  Option.isSome_iff_exists.mp (forall_byte_of_nibbles (P := fun op => (opRow? op).isSome = true) (by decide) op)

/-- What the row of opcode byte `op` builds has that opcode byte, and the operand bytes it was built of. -/
theorem opRow?_build (b1 b2 op : Byte) :
    (opRow? op).map (fun r => ((r.build b1 b2).opcode?, (r.build b1 b2).operandBytes)) =
      (opRow? op).map fun r => (some op, (r.mode.operand b1 b2).bytes) := by
  revert op
  refine forall_byte_of_nibbles fun row hrow col hcol => ?_
  interval_cases row <;> interval_cases col <;> rfl

theorem opRow?_encodes {op : Byte} {r : OpRow} {bs : List Byte} (hrow : opRow? op = some r)
    (hlen : bs.length = r.mode.operandBytes) :
    (ofBytes r.build bs).opcode? = some op ∧ (ofBytes r.build bs).operandBytes = bs := by
  have h := opRow?_build (bs.getD 0 0) (bs.getD 1 0) op
  rw [hrow] at h
  obtain ⟨hop, hbytes⟩ := Prod.mk.inj (Option.some.inj h)
  exact ⟨hop, hbytes.trans (Mode.bytes_ofBytes hlen)⟩

/-! ## The round trips -/

theorem decode_encode_append {i : Instr} (rest : List Byte) (h : i.wellFormed = true) :
    decode (encode i ++ rest) = .ok (i, rest) := by
  obtain ⟨c, hc⟩ := wellFormed_iff_opcode.mp h
  obtain ⟨r, hrow, hmakes⟩ := Option.map_eq_some_iff.mp (rowMakes_opcode hc)
  have hlen : i.operandBytes.length = r.mode.operandBytes := by
    have htakes := rowTakes_opcode hc
    rw [RowTakes, hrow] at htakes
    exact (Option.some.inj htakes).symm
  exact decode_eq_ok.mpr ⟨c, r, i.operandBytes, hrow, hlen, by rw [encode_of_opcode hc, List.cons_append], hmakes.symm⟩

/-- Settles O1: the row of the instruction's opcode byte makes the instruction of its operand bytes. -/
theorem decodeAfterEncode : Obligations.DecodeAfterEncode := by
  intro i rest h
  obtain ⟨-, -, -, hlen⟩ := Laws.WfEncodes.all i
  exact ⟨decode_encode_append rest h, hlen h⟩

/-- What decodes has an opcode byte, the first one read, and the bytes read after it are its operand bytes. -/
theorem opcode_of_decode {bytes rest : List Byte} {i : Instr} (h : decode bytes = .ok (i, rest)) :
    ∃ op, i.opcode? = some op ∧ bytes = op :: (i.operandBytes ++ rest) := by
  obtain ⟨op, r, bs, hrow, hlen, rfl, rfl⟩ := decode_eq_ok.mp h
  obtain ⟨hop, hbytes⟩ := opRow?_encodes hrow hlen
  exact ⟨op, hop, by rw [hbytes]⟩

/-- Settles O2: the row of the first byte builds an instruction with that opcode byte and the operand bytes read. -/
theorem encodeAfterDecode : Obligations.EncodeAfterDecode := by
  intro bytes rest i h
  obtain ⟨op, hop, rfl⟩ := opcode_of_decode h
  exact ⟨wellFormed_iff_opcode.mpr ⟨op, hop⟩, by rw [encode_of_opcode hop, List.cons_append]⟩

theorem OpRow.assemble_ne_unknownOpcode (r : OpRow) (op code : Byte) (bytes : List Byte) :
    r.assemble op bytes ≠ .error (.unknownOpcode code) := by
  unfold OpRow.assemble
  split <;> simp

theorem decode_ne_unknownOpcode (bytes : List Byte) (code : Byte) : decode bytes ≠ .error (.unknownOpcode code) := by
  match bytes with
  | [] => simp [decode]
  | op :: tail =>
    obtain ⟨r, hrow⟩ := opRow?_total op
    simpa only [decode, hrow] using r.assemble_ne_unknownOpcode op code tail

/-- Settles O3: every opcode byte has a row, which takes at most two operand bytes. -/
theorem everyOpcodeByteDecodes : Obligations.EveryOpcodeByteDecodes := by
  refine ⟨fun op b1 b2 => ?_, decode_ne_unknownOpcode⟩
  obtain ⟨r, hrow⟩ := opRow?_total op
  have hlen : ([b1, b2].take r.mode.operandBytes).length = r.mode.operandBytes := by
    simpa using r.mode.operandBytes_le
  obtain ⟨hop, -⟩ := opRow?_encodes hrow hlen
  exact ⟨_, _, decode_eq_ok.mpr ⟨op, r, _, hrow, hlen, by rw [List.take_append_drop], rfl⟩,
    wellFormed_iff_opcode.mpr ⟨op, hop⟩, hop⟩

/-- Settles O4, by running the decoder on each word. -/
theorem sampleWordsDecode : Obligations.SampleWordsDecode := by
  unfold Obligations.SampleWordsDecode
  decide

end Sys2Proof
end

section
/-! Proofs of the addressing family: the effective address and the page cross of every operand form, and the two jumps. -/

namespace Sys2Proof.Machine

/-! ## Addresses as numbers -/

@[simp] theorem zext_toNat (z : Byte) : (zext z).toNat = z.toNat := by
  have := z.isLt
  simp only [zext, BitVec.toNat_setWidth]
  omega

/-- A word indexed by a register wraps at 16 bits. -/
theorem toNat_add_zext (w : Word) (z : Byte) : (w + zext z).toNat = (w.toNat + z.toNat) % 65536 := by
  rw [BitVec.toNat_add, zext_toNat]

/-- A zero-page address indexed by a register wraps in page 0. -/
theorem toNat_zext_add (z r : Byte) : (zext (z + r)).toNat = (z.toNat + r.toNat) % 256 := by
  rw [zext_toNat, BitVec.toNat_add]

/-- Both bytes of a zero-page pointer are in page 0. -/
theorem zpRead16_toNat (z : Byte) (s : State) :
    (zpRead16 z s).toNat = 256 * (s.ram.read ((z.toNat + 1) % 256)).toNat + (s.ram.read z.toNat).toNat := by
  rw [zpRead16, w16_toNat, BitVec.toNat_add, Nat.mul_comm]
  rfl

/-- The high byte of an indirect JMP's target is at the pointer's own page (40_addressing.md R181). -/
theorem jmpIndHigh_eq_w16 (ptr : Word) : jmpIndHigh ptr = w16 (hi ptr) (lo (ptr + 1)) := by
  have hmask : ∀ i < 16, (0xFF00 : Word).getLsbD i = decide (8 ≤ i) ∧ (0x00FF : Word).getLsbD i = decide (i < 8) := by decide
  apply BitVec.eq_of_getLsbD_eq
  intro i hlt
  obtain ⟨hhigh, hlow⟩ := hmask i hlt
  simp only [jmpIndHigh, w16, hi, lo, BitVec.getLsbD_or, BitVec.getLsbD_and, hhigh, hlow, BitVec.getLsbD_append,
    BitVec.getLsbD_extractLsb']
  by_cases h : i < 8
  · simp [h]
  · simp [h, show i - 8 < 8 by omega, show 8 + (i - 8) = i by omega, show 8 ≤ i by omega]

theorem jmpIndHigh_eq (ptr : Word) : jmpIndHigh ptr = BitVec.ofNat 16 (ptr.toNat / 256 * 256 + (ptr.toNat + 1) % 256) := by
  have hnext : (ptr + 1).toNat % 256 = (ptr.toNat + 1) % 256 := by
    rw [BitVec.toNat_add]
    exact Nat.mod_mod_of_dvd _ (by decide)
  rw [jmpIndHigh_eq_w16, w16_eq, hi_toNat, lo_toNat, hnext, Nat.mul_comm]

/-! ## Page crosses -/

/-- Only the three indexed forms of 40_addressing.md R175 cross a page. -/
theorem crosses_eq_false {o : Operand} (s : State) (hx : o.mode ≠ .absoluteX) (hy : o.mode ≠ .absoluteY)
    (hind : o.mode ≠ .indirectY) : crosses o s = false := by
  cases o with
  | acc | imm b | zp z | zpX z | zpY z | abs w | indX z => rfl
  | absX w => exact absurd rfl hx
  | absY w => exact absurd rfl hy
  | indY z => exact absurd rfl hind

/-- Settles O20: a pointer of the statement is `zpRead16` as a number, and indexing is addition modulo the width indexed. -/
theorem effectiveAddresses : Obligations.EffectiveAddresses := by
  intro z w s pointer
  have hpointer : ∀ q : Byte, pointer q.toNat = (zpRead16 q s).toNat := fun q => (zpRead16_toNat q s).symm
  have hindX : (ea (.indX z) s).toNat = pointer ((z.toNat + s.x.toNat) % 256) :=
    calc (zpRead16 (z + s.x) s).toNat
      _ = pointer (z + s.x).toNat := (hpointer _).symm
      _ = pointer ((z.toNat + s.x.toNat) % 256) := by rw [BitVec.toNat_add]
  have hindY : (ea (.indY z) s).toNat = (pointer z.toNat + s.y.toNat) % 65536 := by
    rw [hpointer]
    exact toNat_add_zext (zpRead16 z s) s.y
  have hcross : crosses (.indY z) s = true ↔ pointer z.toNat / 256 ≠ (ea (.indY z) s).toNat / 256 := by
    rw [hpointer]
    exact hi_ne_iff (zpRead16 z s) _
  exact ⟨zext_toNat z, toNat_zext_add z s.x, toNat_zext_add z s.y, rfl, toNat_add_zext w s.x, toNat_add_zext w s.y,
    hindX, hindY, hi_ne_iff w _, hi_ne_iff w _, hcross, fun _ => crosses_eq_false s⟩

/-! ## Jumps (44_control_flow.md R310, R311) -/

theorem exec_jmpInd_of_readOk {w : Word} {s : State} (hlow : ReadOk w s) (hhigh : ReadOk (jmpIndHigh w) (afterRead w s)) :
    exec (.jmpInd w) s = .next { afterRead (jmpIndHigh w) (afterRead w s) with
      pc := w16 (readByte (jmpIndHigh w) (afterRead w s)) (readByte w s) } := by
  show execJmpInd w s = _
  simp only [execJmpInd, jmpIndRead16, memRead_ok hlow, memRead_ok hhigh, State.setPC]

theorem exec_jmpInd_of_low_fault {w : Word} {s : State} (hlow : ¬ ReadOk w s) :
    exec (.jmpInd w) s = .fault (faultAt (.ppuWriteOnlyRead w) s) := by
  show execJmpInd w s = _
  simp only [execJmpInd, jmpIndRead16, memRead_fault hlow]

theorem exec_jmpInd_of_high_fault {w : Word} {s : State} (hlow : ReadOk w s)
    (hhigh : ¬ ReadOk (jmpIndHigh w) (afterRead w s)) :
    exec (.jmpInd w) s = .fault (faultAt (.ppuWriteOnlyRead (jmpIndHigh w)) (afterRead w s)) := by
  show execJmpInd w s = _
  simp only [execJmpInd, jmpIndRead16, memRead_ok hlow, memRead_fault hhigh]

/-- Settles O50: the high byte is read at `jmpIndHigh`, after the low byte's read effect. -/
theorem jumpInstructions : Obligations.JumpInstructions := by
  intro w s
  refine ⟨⟨rfl, rfl, rfl, rfl, rfl⟩, ⟨rfl, rfl, rfl, rfl, rfl⟩, rfl, ?_⟩
  rw [← jmpIndHigh_eq]
  refine ⟨fun hlow hhigh => ?_, exec_jmpInd_of_low_fault, exec_jmpInd_of_high_fault⟩
  rw [exec_jmpInd_of_readOk hlow hhigh, w16_eq]

end Sys2Proof.Machine
end

section
/-! Proofs of the load, store and transfer family: the rows of an instruction with several modes, loads that set N and Z of the
byte, plain stores, and the register transfers. -/

namespace Sys2Proof.Machine

/-! ## The rows of an instruction with several modes (30_encoding.md R156) -/

theorem codeFor_map_eq_find? (m : Mode) (rows : List (Mode × Byte × Nat × Bool)) :
    codeFor m (rows.map fun r => (r.1, r.2.1)) = (rows.find? fun r => decide (r.1 = m)).map (·.2.1) := by
  induction rows with
  | nil => rfl
  | cons r rest ih =>
    rw [List.map_cons, codeFor, List.find?_cons, ih]
    by_cases h : r.1 = m
    · simp [h]
    · simp [h, Ne.symm h]

theorem row?_of_opcode {i : Instr} {c : Byte} (h : i.opcode? = some c) : i.row? = opRow? c := by
  rw [Instr.row?, h, Option.bind_some]

/-- The "Encoding" line of an instruction says which modes it has; the cycles and the `+p` mark are the opcode map's. -/
theorem hasRows_of_opcode {k : Operand → Instr} {rows : List (Mode × Byte × Nat × Bool)}
    (hcode : ∀ o, (k o).opcode? = codeFor o.mode (rows.map fun r => (r.1, r.2.1)))
    (hrows : ∀ r ∈ rows, (opRow? r.2.1).map (fun w => (w.cycles, w.cross)) = some r.2.2) : HasRows k rows := by
  intro o
  have hfind := (hcode o).trans (codeFor_map_eq_find? o.mode rows)
  split
  · next m code cycles cross hrow =>
    have hop : (k o).opcode? = some code := by rw [hfind, hrow]; rfl
    obtain ⟨w, hw, heq⟩ := Option.map_eq_some_iff.mp (hrows _ (List.mem_of_find?_eq_some hrow))
    obtain ⟨rfl, rfl⟩ := Prod.mk.inj heq
    have hrow? := (row?_of_opcode hop).trans hw
    exact ⟨wellFormed_iff_opcode.mpr ⟨code, hop⟩, hop, by simp [Instr.baseCycles, hrow?],
      by simp [Instr.crossPenalty, hrow?]⟩
  · next hnone =>
    rw [← Bool.not_eq_true, wellFormed_iff_opcode, hfind, hnone]
    simp

/-! ## Loads -/

theorem State.setNZ_eq_withNZ (s : State) (v : Byte) : s.setNZ v = { s with p := withNZ s.p v } :=
  congrArg s.setP (setNZ_eq s.p v)

/-- A loading instruction whose byte goes to registers, with N and Z of that byte (41_load_store_transfer.md R200 to R202). -/
theorem loadSpec_setNZ {k : Operand → Instr} (f : Byte → State → State) (hacc : (k .acc).wellFormed = false)
    (hexec : ∀ o s, exec (k o) s = onLoad (k o) o s fun m t => (f m t).setNZ m) :
    LoadSpec k fun m t => { f m t with p := withNZ (f m t).p m } :=
  loadSpec_of hacc fun o s => by simp only [hexec, State.setNZ_eq_withNZ]

theorem sameCore_afterOperand (i : Instr) (o : Operand) (s : State) : SameCore s (afterOperand i o s) := by
  unfold afterOperand
  split
  · exact SameCore.refl s
  · dsimp only
    split
    · exact (sameCore_afterRead _ s).trans (sameCore_tick _ 1)
    · exact sameCore_afterRead _ s

theorem exec_las_of_readOk {w : Word} {s : State} (h : ReadOk (ea (.absY w) s) s) :
    let r := readByte (ea (.absY w) s) s &&& s.sp
    exec (.las w) s = .next { afterOperand (.las w) (.absY w) s with a := r, x := r, sp := r, p := withNZ s.p r } := by
  intro r
  have hload : load (.las w) (.absY w) s = .ok (readByte (ea (.absY w) s) s, afterOperand (.las w) (.absY w) s) :=
    load_ok ⟨Operand.noConfusion, .inr h⟩
  obtain ⟨-, -, -, hsp, -, hp, -⟩ := sameCore_afterOperand (.las w) (.absY w) s
  show execLas w s = _
  simp only [execLas, onLoad, hload, State.setANZ, State.setNZ_eq_withNZ, hsp, ← hp]
  rfl

theorem exec_las_of_read_fault {w : Word} {s : State} (h : ¬ ReadOk (ea (.absY w) s) s) :
    exec (.las w) s = .fault (faultAt (.ppuWriteOnlyRead (ea (.absY w) s)) s) := by
  have hoperand : ¬ OperandOk (.absY w) s := fun hok => h (hok.2.resolve_left Mode.noConfusion)
  show execLas w s = _
  rw [execLas, onLoad, load_fault Operand.noConfusion hoperand]

/-- Settles O41: the rows from the "Encoding" lines, the four plain loads by what they do with the byte, and LAS from the state
after its read, which keeps SP and P. -/
theorem loadInstructions : Obligations.LoadInstructions :=
  ⟨hasRows_of_opcode (fun _ => rfl) (by decide), hasRows_of_opcode (fun _ => rfl) (by decide),
    hasRows_of_opcode (fun _ => rfl) (by decide), hasRows_of_opcode (fun _ => rfl) (by decide),
    loadSpec_setNZ (fun m t => t.setA m) rfl fun _ _ => rfl, loadSpec_setNZ (fun m t => t.setX m) rfl fun _ _ => rfl,
    loadSpec_setNZ (fun m t => t.setY m) rfl fun _ _ => rfl, loadSpec_setNZ (fun m t => (t.setX m).setA m) rfl fun _ _ => rfl,
    fun _ _ => ⟨⟨rfl, rfl, rfl, rfl, rfl⟩, exec_las_of_readOk, exec_las_of_read_fault⟩⟩

/-! ## Stores -/

/-- An instruction with neither an accumulator nor an immediate form has an effective address in each of its modes. -/
theorem resolves_of_wellFormed {k : Operand → Instr} (hacc : (k .acc).wellFormed = false)
    (himm : ∀ b, (k (.imm b)).wellFormed = false) (o : Operand) (h : (k o).wellFormed = true) : resolves o = true := by
  cases o with
  | acc => rw [hacc] at h; cases h
  | imm b => rw [himm b] at h; cases h
  | zp | zpX | zpY | abs | absX | absY | indX | indY => rfl

/-- Settles O42: the rows from the "Encoding" lines; each is the store of its byte in modes that all have an effective address. -/
theorem storeInstructions : Obligations.StoreInstructions :=
  ⟨hasRows_of_opcode (fun _ => rfl) (by decide), hasRows_of_opcode (fun _ => rfl) (by decide),
    hasRows_of_opcode (fun _ => rfl) (by decide), hasRows_of_opcode (fun _ => rfl) (by decide),
    storeSpec_of (resolves_of_wellFormed rfl fun _ => rfl) fun _ _ => rfl,
    storeSpec_of (resolves_of_wellFormed rfl fun _ => rfl) fun _ _ => rfl,
    storeSpec_of (resolves_of_wellFormed rfl fun _ => rfl) fun _ _ => rfl,
    storeSpec_of (resolves_of_wellFormed rfl fun _ => rfl) fun _ _ => rfl⟩

/-! ## Register transfers -/

/-- Settles O43: each transfer but TXS is a register write and then N and Z of the byte. -/
theorem transferInstructions : Obligations.TransferInstructions := by
  refine ⟨⟨rfl, rfl, rfl, rfl, rfl⟩, ⟨rfl, rfl, rfl, rfl, rfl⟩, ⟨rfl, rfl, rfl, rfl, rfl⟩, ⟨rfl, rfl, rfl, rfl, rfl⟩,
    ⟨rfl, rfl, rfl, rfl, rfl⟩, ⟨rfl, rfl, rfl, rfl, rfl⟩, fun s => ⟨?_, ?_, ?_, ?_, ?_, rfl⟩⟩
  · exact congrArg Host.Outcome.next ((s.setX s.a).setNZ_eq_withNZ s.a)
  · exact congrArg Host.Outcome.next ((s.setY s.a).setNZ_eq_withNZ s.a)
  · exact congrArg Host.Outcome.next ((s.setA s.x).setNZ_eq_withNZ s.x)
  · exact congrArg Host.Outcome.next ((s.setA s.y).setNZ_eq_withNZ s.y)
  · exact congrArg Host.Outcome.next ((s.setX s.sp).setNZ_eq_withNZ s.sp)

end Sys2Proof.Machine
end

section
/-! Proofs of the arithmetic and logic family: addition and subtraction in integers, the loads, compares and read-modify-writes of
42_arithmetic_logic.md, and that nothing looks at the Decimal flag. -/

namespace Sys2Proof.Machine

/-! ## Subtraction in integers (42_arithmetic_logic.md R232) -/

theorem addCore_eq (a m : Byte) (c : Bool) :
    addCore a m c = (sumByte a m c, decide (255 < a.toNat + m.toNat + c.toNat),
      decide ((128 ≤ a.toNat ↔ 128 ≤ m.toNat) ∧ ¬ (128 ≤ (sumByte a m c).toNat ↔ 128 ≤ a.toNat))) := by
  simp only [addCore, sumByte_eq, overflow_eq, gt_iff_lt]

theorem toNat_sumByte (a m : Byte) (c : Bool) : (sumByte a m c).toNat = (a.toNat + m.toNat + c.toNat) % 256 := by
  simp [sumByte]

/-- A byte as a signed number. -/
theorem toInt_byte (a : Byte) : a.toInt = a.toNat - 256 * (if 128 ≤ a.toNat then 1 else 0) := by
  rw [BitVec.toInt_eq_toNat_cond]
  split_ifs <;> omega

/-- What the borrow takes away is what the carry leaves of 1. -/
theorem borrow_eq (c : Bool) : (if c then 0 else 1 : Nat) = 1 - c.toNat := by
  cases c <;> rfl

/-- A subtraction adds the complement: its three results in integers. -/
theorem subCore_spec (a m : Byte) (c : Bool) :
    let borrow : Nat := if c then 0 else 1
    (subCore a m c).1 = BitVec.ofInt 8 (a.toInt - m.toInt - borrow) ∧
    ((subCore a m c).2.1 = true ↔ m.toNat + borrow ≤ a.toNat) ∧
    ((subCore a m c).2.2 = true ↔ a.toInt - m.toInt - borrow < -128 ∨ 127 < a.toInt - m.toInt - borrow) := by
  intro borrow
  have hborrow : borrow = 1 - c.toNat := borrow_eq c
  have hc := c.toNat_le
  have ha := a.isLt
  have hm := m.isLt
  simp only [subCore, addCore_eq, toNat_sumByte, BitVec.toNat_not, toInt_byte, decide_eq_true_eq]
  refine ⟨?_, ?_, ?_⟩
  · apply BitVec.eq_of_toNat_eq
    rw [toNat_sumByte, BitVec.toNat_not, BitVec.toNat_ofInt]
    split_ifs <;> omega
  · omega
  · split_ifs <;> omega

/-- Settles O40: a subtraction adds the complement, and `subFromA` writes N and Z of the difference. -/
theorem subtractIsTwosComplement : Obligations.SubtractIsTwosComplement := by
  refine ⟨subCore_spec, fun m s => ?_⟩
  obtain ⟨hbyte, hcarry, hoverflow⟩ := subCore_spec s.a m s.p.c
  refine ⟨rfl, rfl, ?_, hbyte, hcarry, hoverflow⟩
  rw [subFromA_eq]
  rfl

/-! ## Instructions on a byte read (42_arithmetic_logic.md R234 to R242) -/

theorem State.setANZ_eq_withNZ (s : State) (v : Byte) : s.setANZ v = { s with a := v, p := withNZ s.p v } :=
  (s.setA v).setNZ_eq_withNZ v

theorem bitTest_eq (f : Flags) (a m : Byte) :
    f.bitTest a m = { f with
      z := decide ((a &&& m).toNat = 0), n := decide (128 ≤ m.toNat), v := decide (64 ≤ m.toNat % 128) } := by
  simp only [Flags.bitTest, byte_zero_test, byte_bit7, byte_bit6]

/-- A loading instruction whose effect on the state is `f` as the model computes it and `g` as the statement writes it. -/
theorem loadSpec_of_eq {k : Operand → Instr} {f g : Byte → State → State} (hacc : (k .acc).wellFormed = false)
    (hfg : ∀ m t, f m t = g m t) (hexec : ∀ o s, exec (k o) s = onLoad (k o) o s f) : LoadSpec k g :=
  funext₂ hfg ▸ loadSpec_of hacc hexec

/-- Settles O44: ADC and SBC are loads that add the byte or its complement; SBC 0xEB is SBC of its immediate. -/
theorem addAndSubtract : Obligations.AddAndSubtract :=
  ⟨hasRows_of_opcode (fun _ => rfl) (by decide), hasRows_of_opcode (fun _ => rfl) (by decide),
    loadSpec_of_eq rfl (fun m t => addToA_eq t m t.p.c) fun _ _ => rfl,
    loadSpec_of_eq rfl (fun m t => subFromA_eq t m) fun _ _ => rfl,
    fun imm => ⟨⟨rfl, rfl, rfl, rfl, rfl⟩, fun s => ⟨congrArg Host.Outcome.next (subFromA_eq s imm), rfl⟩⟩⟩

/-- Settles O45: each is a load that writes A with N and Z. -/
theorem logicInstructions : Obligations.LogicInstructions :=
  ⟨hasRows_of_opcode (fun _ => rfl) (by decide), hasRows_of_opcode (fun _ => rfl) (by decide),
    hasRows_of_opcode (fun _ => rfl) (by decide),
    loadSpec_of_eq rfl (fun m t => t.setANZ_eq_withNZ (t.a &&& m)) fun _ _ => rfl,
    loadSpec_of_eq rfl (fun m t => t.setANZ_eq_withNZ (t.a ||| m)) fun _ _ => rfl,
    loadSpec_of_eq rfl (fun m t => t.setANZ_eq_withNZ (t.a ^^^ m)) fun _ _ => rfl⟩

/-- Settles O46: each is a load that writes P only. -/
theorem compareInstructions : Obligations.CompareInstructions :=
  ⟨hasRows_of_opcode (fun _ => rfl) (by decide), hasRows_of_opcode (fun _ => rfl) (by decide),
    hasRows_of_opcode (fun _ => rfl) (by decide), hasRows_of_opcode (fun _ => rfl) (by decide),
    loadSpec_of_eq rfl (fun m t => congrArg t.setP (compare_eq t.p t.a m)) fun _ _ => rfl,
    loadSpec_of_eq rfl (fun m t => congrArg t.setP (compare_eq t.p t.x m)) fun _ _ => rfl,
    loadSpec_of_eq rfl (fun m t => congrArg t.setP (compare_eq t.p t.y m)) fun _ _ => rfl,
    loadSpec_of_eq rfl (fun m t => congrArg t.setP (bitTest_eq t.p t.a m)) fun _ _ => rfl⟩

/-! ## Increments and decrements (42_arithmetic_logic.md R243 to R248) -/

/-- A read-modify-write in memory modes only, with N and Z of the byte it writes. -/
theorem rmwSpec_setNZ {k : Operand → Instr} (f : Byte → Byte) (hacc : (k .acc).wellFormed = false)
    (himm : ∀ b, (k (.imm b)).wellFormed = false)
    (hexec : ∀ o s, exec (k o) s = onRmw o f s fun m t => t.setNZ (f m)) :
    RmwSpec k (fun _ m => f m) fun _ m t => { t with p := withNZ t.p (f m) } :=
  rmwSpec_of (fun o h _ => resolves_of_wellFormed hacc himm o h) fun o s _ => by
    simp only [hexec, State.setNZ_eq_withNZ]

/-- Settles O47: INC and DEC are read-modify-writes with N and Z of the byte written, the others register writes with N and Z. -/
theorem incrementAndDecrement : Obligations.IncrementAndDecrement := by
  refine ⟨hasRows_of_opcode (fun _ => rfl) (by decide), hasRows_of_opcode (fun _ => rfl) (by decide),
    ⟨rfl, rfl, rfl, rfl, rfl⟩, ⟨rfl, rfl, rfl, rfl, rfl⟩, ⟨rfl, rfl, rfl, rfl, rfl⟩, ⟨rfl, rfl, rfl, rfl, rfl⟩,
    rmwSpec_setNZ (· + 1) rfl (fun _ => rfl) fun _ _ => rfl, rmwSpec_setNZ (· - 1) rfl (fun _ => rfl) fun _ _ => rfl,
    fun s => ⟨?_, ?_, ?_, ?_⟩⟩
  · exact congrArg Host.Outcome.next ((s.setX (s.x + 1)).setNZ_eq_withNZ (s.x + 1))
  · exact congrArg Host.Outcome.next ((s.setY (s.y + 1)).setNZ_eq_withNZ (s.y + 1))
  · exact congrArg Host.Outcome.next ((s.setX (s.x - 1)).setNZ_eq_withNZ (s.x - 1))
  · exact congrArg Host.Outcome.next ((s.setY (s.y - 1)).setNZ_eq_withNZ (s.y - 1))

/-! ## The Decimal flag (42_arithmetic_logic.md R250) -/

/-- The outcome of an access with the Decimal flag of the state it holds replaced. -/
def resultWithDecimal (d : Bool) : Except Fault State → Except Fault State
  | .ok s => .ok (withDecimal d s)
  | .error (.stopped info left) => .error (.stopped info (withDecimal d left))

theorem readOk_withDecimal (a : Word) (d : Bool) (s : State) : ReadOk a (withDecimal d s) ↔ ReadOk a s := Iff.rfl

theorem readByte_withDecimal (a : Word) (d : Bool) (s : State) : readByte a (withDecimal d s) = readByte a s := rfl

theorem afterRead_withDecimal (a : Word) (d : Bool) (s : State) :
    afterRead a (withDecimal d s) = withDecimal d (afterRead a s) := by
  have hregion : region (withDecimal d s).prgSize a = region s.prgSize a := rfl
  have hparams : (withDecimal d s).params = s.params := rfl
  unfold afterRead
  rw [hregion, hparams]
  split
  · cases s.params.statusLowBits <;> rfl
  all_goals rfl

theorem dmaByte_withDecimal (a : Word) (d : Bool) (s : State) :
    dmaByte a (withDecimal d s) = resultWithDecimal d (dmaByte a s) := by
  by_cases hr : ReadOk a s
  · have hr' := (readOk_withDecimal a d s).mpr hr
    rw [dmaByte_ok hr, dmaByte_ok hr', readByte_withDecimal, afterRead_withDecimal]
    rfl
  · have hr' := mt (readOk_withDecimal a d s).mp hr
    simp only [dmaByte, memRead_fault hr, memRead_fault hr']
    rfl

theorem dmaCopy_withDecimal (d : Bool) (pg : Byte) (n : Nat) (s : State) :
    dmaCopy pg n (withDecimal d s) = resultWithDecimal d (dmaCopy pg n s) := by
  induction n generalizing s with
  | zero => rfl
  | succ n ih =>
    unfold dmaCopy
    rw [dmaByte_withDecimal]
    cases dmaByte (w16 pg (BitVec.ofNat 8 (255 - n))) s with
    | ok t => exact ih t
    | error e => rfl

theorem memWrite_withDecimal (a : Word) (v : Byte) (d : Bool) (s : State) :
    memWrite a v (withDecimal d s) = resultWithDecimal d (memWrite a v s) := by
  have hfault : writeFault? a v (withDecimal d s) = writeFault? a v s := rfl
  have hregion : region (withDecimal d s).prgSize a = region s.prgSize a := rfl
  unfold memWrite
  rw [hfault, hregion]
  split
  · rfl
  · split
    case h_9 =>
      unfold oamDma
      rw [dmaCopy_withDecimal]
      cases dmaCopy v 256 s <;> rfl
    all_goals rfl

theorem ea_withDecimal (o : Operand) (d : Bool) (s : State) : ea o (withDecimal d s) = ea o s := rfl

theorem afterOperand_withDecimal (i : Instr) (o : Operand) (d : Bool) (s : State) :
    afterOperand i o (withDecimal d s) = withDecimal d (afterOperand i o s) := by
  have hcross : crosses o (withDecimal d s) = crosses o s := rfl
  unfold afterOperand
  split
  · rfl
  · dsimp only
    rw [hcross, ea_withDecimal, afterRead_withDecimal]
    split <;> rfl

/-- A loading instruction that does not look at the Decimal flag once its operand is read. -/
theorem onLoad_withDecimal {k : Byte → State → State} {d : Bool} (hk : ∀ m t, k m (withDecimal d t) = withDecimal d (k m t))
    (i : Instr) (o : Operand) (s : State) :
    onLoad i o (withDecimal d s) k = outcomeWithDecimal d (onLoad i o s k) := by
  by_cases hacc : o = .acc
  · subst hacc
    rfl
  · have hok : OperandOk o (withDecimal d s) ↔ OperandOk o s := Iff.rfl
    by_cases h : OperandOk o s
    · simp only [onLoad, load_ok h, load_ok (hok.mpr h), afterOperand_withDecimal, hk]
      rfl
    · simp only [onLoad, load_fault hacc h, load_fault hacc (mt hok.mp h)]
      rfl

/-- A read-modify-write instruction that does not look at the Decimal flag once its byte is written. -/
theorem onRmw_withDecimal {k : Byte → State → State} {d : Bool} (hk : ∀ m t, k m (withDecimal d t) = withDecimal d (k m t))
    (o : Operand) (f : Byte → Byte) (s : State) :
    onRmw o f (withDecimal d s) k = outcomeWithDecimal d (onRmw o f s k) := by
  by_cases hres : resolves o = true
  · by_cases hr : ReadOk (ea o s) s
    · have hr' := (readOk_withDecimal _ d s).mpr hr
      simp only [onRmw, rmw_eq f _ hres, ea_withDecimal, memRead_ok hr, memRead_ok hr', readByte_withDecimal,
        afterRead_withDecimal, memWrite_withDecimal]
      cases memWrite (ea o s) (f (readByte (ea o s) s)) (afterRead (ea o s) s) with
      | ok t => exact congrArg Host.Outcome.next (hk _ t)
      | error e => rfl
    · have hr' := mt (readOk_withDecimal _ d s).mp hr
      simp only [onRmw, rmw_eq f _ hres, ea_withDecimal, memRead_fault hr, memRead_fault hr']
      rfl
  · cases o with
    | acc => exact congrArg Host.Outcome.next (hk s.a (s.setA (f s.a)))
    | imm b => rfl
    | zp | zpX | zpY | abs | absX | absY | indX | indY => exact absurd rfl hres

/-- Settles O39: no access looks at the Decimal flag, and neither does the addition, the subtraction or ARR after it. -/
theorem decimalHasNoEffect : Obligations.DecimalHasNoEffect := by
  intro d o imm s
  have hadd : ∀ (m : Byte) (c : Bool) (t : State), (withDecimal d t).addToA m c = withDecimal d (t.addToA m c) :=
    fun _ _ _ => rfl
  have hsub : ∀ (m : Byte) (t : State), (withDecimal d t).subFromA m = withDecimal d (t.subFromA m) := fun _ _ => rfl
  exact ⟨onLoad_withDecimal (fun m t => hadd m t.p.c t) _ o s, onLoad_withDecimal hsub _ o s,
    congrArg Host.Outcome.next (hsub imm s), rfl, onRmw_withDecimal (fun m t => hadd _ _ t) o _ s,
    onRmw_withDecimal (fun m => hsub (m + 1)) o _ s⟩

end Sys2Proof.Machine
end

section
/-! Proofs of the shift family (43_shift_rotate.md): the one shape of ASL, LSR, ROL and ROR, of memory and of A. -/

namespace Sys2Proof.Machine

theorem Flags.setShift_eq_withShift (f : Flags) (r : Byte × Bool) : f.setShift r = withShift f r.2 r.1 :=
  setNZ_eq (f.setC r.2) r.1

/-- A shift as the model runs it (R280), for a core that makes the byte `result v` and moves the bit `out v` out. -/
theorem shiftBy_eq_onRmw {core : Byte → Byte × Bool} {result : Byte → Byte} {out : Byte → Bool}
    (hcore : ∀ v, core v = (result v, out v)) (o : Operand) (s : State) :
    shiftBy o core s = onRmw o result s fun m t => { t with p := withShift t.p (out m) (result m) } := by
  simp only [shiftBy, hcore, Flags.setShift_eq_withShift]
  rfl

/-- An instruction without an immediate form has an effective address in each of its modes but the accumulator. -/
theorem resolves_of_ne_acc {k : Operand → Instr} (himm : ∀ b, (k (.imm b)).wellFormed = false) (o : Operand)
    (h : (k o).wellFormed = true) (hacc : o ≠ .acc) : resolves o = true := by
  cases o with
  | acc => exact absurd rfl hacc
  | imm b => rw [himm b] at h; cases h
  | zp | zpX | zpY | abs | absX | absY | indX | indY => rfl

/-- A shift of memory: the core sees the carry from before the instruction. -/
theorem rmwSpec_of_shiftBy {k : Operand → Instr} {core : Bool → Byte → Byte × Bool} {result : Bool → Byte → Byte}
    {out : Byte → Bool} (hcore : ∀ c v, core c v = (result c v, out v)) (himm : ∀ b, (k (.imm b)).wellFormed = false)
    (hexec : ∀ o s, exec (k o) s = shiftBy o (core s.p.c) s) :
    RmwSpec k result fun c m t => { t with p := withShift t.p (out m) (result c m) } :=
  rmwSpec_of (resolves_of_ne_acc himm) fun o s _ => (hexec o s).trans (shiftBy_eq_onRmw (hcore s.p.c) o s)

/-- A shift of A changes A and P only. -/
theorem shiftBy_acc {core : Byte → Byte × Bool} {result : Byte → Byte} {out : Byte → Bool}
    (hcore : ∀ v, core v = (result v, out v)) (s : State) :
    shiftBy .acc core s = .next { s with a := result s.a, p := withShift s.p (out s.a) (result s.a) } :=
  shiftBy_eq_onRmw hcore .acc s

/-- Settles O48: the rows from the "Encoding" lines; ASL, LSR, ROL and ROR are one shift with four cores. -/
theorem shiftInstructions : Obligations.ShiftInstructions :=
  ⟨hasRows_of_opcode (fun _ => rfl) (by decide), hasRows_of_opcode (fun _ => rfl) (by decide),
    hasRows_of_opcode (fun _ => rfl) (by decide), hasRows_of_opcode (fun _ => rfl) (by decide),
    rmwSpec_of_shiftBy (fun _ => aslCore_eq) (fun _ => rfl) fun _ _ => rfl,
    rmwSpec_of_shiftBy (fun _ => lsrCore_eq) (fun _ => rfl) fun _ _ => rfl,
    rmwSpec_of_shiftBy (fun c v => rolCore_eq v c) (fun _ => rfl) fun _ _ => rfl,
    rmwSpec_of_shiftBy (fun c v => rorCore_eq v c) (fun _ => rfl) fun _ _ => rfl,
    fun s => ⟨shiftBy_acc aslCore_eq s, shiftBy_acc lsrCore_eq s, shiftBy_acc (rolCore_eq · s.p.c) s,
      shiftBy_acc (rorCore_eq · s.p.c) s⟩⟩

end Sys2Proof.Machine
end

section
/-! Proofs of the control flow family (44_control_flow.md): the one shape of the eight branches, a word on the stack, and the
stops. -/

namespace Sys2Proof.Machine

/-! ## Branches (44_control_flow.md R300) -/

theorem branchTarget_eq_targetOf (off : Byte) (s : State) : branchTarget off s = targetOf s.pc off := by
  rw [targetOf, BitVec.ofInt_add, BitVec.ofInt_natCast, BitVec.ofNat_toNat, BitVec.setWidth_eq]
  rfl

theorem branchCycles_eq (u w : Word) :
    (if hi u != hi w then 2 else 1) = if u.toNat / 256 = w.toNat / 256 then 1 else 2 := by
  simp only [hi_ne_iff, ne_eq, ite_not]

theorem branch_taken (off : Byte) (s : State) :
    branch true off s = .next { s with
      pc := targetOf s.pc off
      ctx := { s.ctx with
        cyc := s.ctx.cyc + (if s.pc.toNat / 256 = (targetOf s.pc off).toNat / 256 then 1 else 2) } } := by
  rw [← branchCycles_eq, ← branchTarget_eq_targetOf]
  rfl

/-- Every branch instruction is `branch` on a condition on P. -/
theorem branchSpec_of {k : Byte → Instr} {cond : Flags → Bool} (hexec : ∀ off s, exec (k off) s = branch (cond s.p) off s) :
    BranchSpec k cond := by
  refine fun off s => ⟨fun hnot => ?_, fun htaken => ?_⟩
  · rw [hexec, hnot]
    rfl
  · rw [hexec, htaken, branch_taken]

/-- Settles O49: the eight branches are one shape with eight conditions. -/
theorem branchInstructions : Obligations.BranchInstructions :=
  ⟨fun _ => ⟨⟨rfl, rfl, rfl, rfl, rfl⟩, ⟨rfl, rfl, rfl, rfl, rfl⟩, ⟨rfl, rfl, rfl, rfl, rfl⟩, ⟨rfl, rfl, rfl, rfl, rfl⟩,
      ⟨rfl, rfl, rfl, rfl, rfl⟩, ⟨rfl, rfl, rfl, rfl, rfl⟩, ⟨rfl, rfl, rfl, rfl, rfl⟩, ⟨rfl, rfl, rfl, rfl, rfl⟩⟩,
    branchSpec_of fun _ _ => rfl, branchSpec_of fun _ _ => rfl, branchSpec_of fun _ _ => rfl, branchSpec_of fun _ _ => rfl,
    branchSpec_of fun _ _ => rfl, branchSpec_of fun _ _ => rfl, branchSpec_of fun _ _ => rfl, branchSpec_of fun _ _ => rfl⟩

/-! ## A word on the stack (45_stack_flags_misc.md R340 to R342) -/

@[simp] theorem State.popWord_setPC (s : State) (w : Word) : (s.setPC w).popWord = s.popWord := rfl
@[simp] theorem State.popped16_setPC (s : State) (w : Word) : (s.setPC w).popped16 = s.popped16.setPC w := rfl
@[simp] theorem State.push16_a (s : State) (w : Word) : (s.push16 w).a = s.a := rfl
@[simp] theorem State.push16_p (s : State) (w : Word) : (s.push16 w).p = s.p := rfl
@[simp] theorem State.popped16_a (s : State) : s.popped16.a = s.a := rfl
@[simp] theorem State.popped16_p (s : State) : s.popped16.p = s.p := rfl

theorem byte_sub_two (n : Byte) : n - 1 - 1 = n - 2 := by
  bv_omega

theorem byte_add_two (n : Byte) : n + 1 + 1 = n + 2 := by
  bv_omega

theorem State.push16_eq (s : State) (w : Word) :
    s.push16 w = { s with
      sp := s.sp - 2
      ram := (s.ram.write (0x100 + s.sp.toNat) (BitVec.ofNat 8 (w.toNat / 256))).write
        (0x100 + (s.sp - 1).toNat) (BitVec.ofNat 8 (w.toNat % 256)) } := by
  rw [← byte_sub_two, ← hi_eq, ← lo_eq]
  rfl

theorem State.popWord_eq (s : State) :
    s.popWord = BitVec.ofNat 16 (256 * (s.ram.read (0x100 + (s.sp + 2).toNat)).toNat +
      (s.ram.read (0x100 + (s.sp + 1).toNat)).toNat) := by
  rw [← byte_add_two, ← w16_eq]
  rfl

theorem State.popped16_eq (s : State) : s.popped16 = { s with sp := s.sp + 2 } := by
  rw [← byte_add_two]
  rfl

theorem State.push_popped_sp (s : State) (v : Byte) : (s.push v).popped.sp = s.sp :=
  BitVec.sub_add_cancel s.sp 1

@[simp] theorem State.popByte_push (s : State) (v : Byte) : (s.push v).popByte = v := by
  have hsp : (s.push v).sp + 1 = s.sp := s.push_popped_sp v
  rw [State.popByte, hsp, State.push_ram, Memory.read_write_same]

theorem stackIndex_add_one_ne (n : Byte) : stackIndex (n + 1) ≠ stackIndex n := by
  unfold stackIndex
  bv_omega

/-- A push and its pull leave the byte above them on the stack as it was. -/
theorem State.popByte_popped_push (s : State) (v : Byte) : (s.push v).popped.popByte = s.popByte := by
  show (s.push v).ram.read (stackIndex ((s.push v).popped.sp + 1)) = s.popByte
  rw [State.push_popped_sp, State.push_ram, Memory.read_write_other _ _ (stackIndex_add_one_ne s.sp)]
  rfl

@[simp] theorem State.popWord_push16 (s : State) (w : Word) : (s.push16 w).popWord = w := by
  rw [State.popWord, State.push16, State.popByte_popped_push, State.popByte_push, State.popByte_push, w16_hi_lo]

@[simp] theorem State.push16_popped16_sp (s : State) (w : Word) : (s.push16 w).popped16.sp = s.sp :=
  calc (s.push16 w).popped16.sp
    _ = (s.push (hi w)).popped.sp := congrArg (· + 1) ((s.push (hi w)).push_popped_sp (lo w))
    _ = s.sp := s.push_popped_sp (hi w)

/-! ## Subroutines and returns (44_control_flow.md R312 to R314) -/

theorem exec_jsr_eq (w : Word) (s : State) : exec (.jsr w) s = .next ((s.push16 (s.pc - 1)).setPC w) := rfl

theorem exec_rts_eq (s : State) : exec .rts s = .next (s.popped16.setPC (s.popWord + 1)) := rfl

/-- RTS adds the 1 back that JSR took off the address it pushed. -/
theorem exec_rts_after_jsr {w : Word} {s t : State} (h : exec (.jsr w) s = .next t) :
    ∃ u, exec .rts t = .next u ∧ u.pc = s.pc ∧ u.sp = s.sp ∧ u.p = s.p ∧ u.a = s.a := by
  rw [exec_jsr_eq] at h
  cases h
  have hpc : ((s.push16 (s.pc - 1)).setPC w).popWord + 1 = s.pc := by
    rw [State.popWord_setPC, State.popWord_push16, BitVec.sub_add_cancel]
  exact ⟨_, exec_rts_eq _, hpc, by simp, by simp, by simp⟩

/-- Settles O51: JSR is a push of a word and RTS a pull of one. -/
theorem subroutineInstructions : Obligations.SubroutineInstructions := by
  refine ⟨fun _ => ⟨rfl, rfl, rfl, rfl, rfl⟩, ⟨rfl, rfl, rfl, rfl, rfl⟩, fun w s => ⟨?_, ?_, fun _ => exec_rts_after_jsr⟩⟩
  · rw [exec_jsr_eq, State.push16_eq]
    rfl
  · rw [exec_rts_eq, State.popped16_eq, State.popWord_eq]
    rfl

theorem exec_rti_eq (s : State) :
    exec .rti s = .next { s.popped.popped16 with p := Flags.popped s.popByte, pc := s.popped.popWord } := rfl

/-- Settles O52: RTI pulls a byte for P and then the word above it for PC. -/
theorem rtiInstruction : Obligations.RtiInstruction := by
  refine ⟨⟨rfl, rfl, rfl, rfl, rfl⟩, fun s => ?_⟩
  have hlow : s.popped.sp + 1 = s.sp + 2 := byte_add_two s.sp
  have hhigh : s.popped.sp + 2 = s.sp + 3 := by
    rw [State.popped_sp]
    bv_omega
  rw [exec_rti_eq, Flags.popped_eq, State.popped16_eq, State.popWord_eq, hlow, hhigh]
  rfl

/-! ## Stops (44_control_flow.md R330, 46_undocumented.md R420) -/

theorem hasRow_jam {code : Byte} (h : code ∈ jamCodes) : HasRow (.jam code) code 1 2 false := by
  have hop : (Instr.jam code).opcode? = some code := if_pos h
  have hrows : ∀ c ∈ jamCodes, (opRow? c).map (fun r => (r.cycles, r.cross)) = some (2, false) := by decide
  obtain ⟨r, hr, heq⟩ := Option.map_eq_some_iff.mp (hrows code h)
  obtain ⟨hcycles, hcross⟩ := Prod.mk.inj heq
  have hrow := (row?_of_opcode hop).trans hr
  exact ⟨decide_eq_true h, hop, rfl, by simp [Instr.baseCycles, hrow, hcycles], by simp [Instr.crossPenalty, hrow, hcross]⟩

theorem exec_jam_of_jam {s : State} (code : Byte) (h : s.params.jamPolicy = .jam) :
    exec (.jam code) s = .next { s with cpuRun := .jammed } := by
  show execJam s = _
  rw [execJam, h]
  rfl

theorem exec_jam_of_nop {s : State} (code : Byte) (h : s.params.jamPolicy = .nop) : exec (.jam code) s = .next s := by
  show execJam s = _
  rw [execJam, h]

/-- Settles O53: BRK writes the run state; JAM does what the policy says, and its row has two cycles, charged under `nop` only. -/
theorem haltAndJam : Obligations.HaltAndJam := by
  refine ⟨⟨rfl, rfl, rfl, rfl, rfl⟩, fun _ => hasRow_jam, fun s code hwf => ⟨rfl, rfl, fun hjam => ?_, fun hnop => ?_⟩⟩
  · exact ⟨exec_jam_of_jam code hjam, if_pos hjam⟩
  · obtain ⟨-, -, -, hcycles, -⟩ := hasRow_jam (of_decide_eq_true hwf)
    have hcharge : baseCharge s.params (.jam code) = (Instr.jam code).baseCycles := if_neg (by simp [hnop])
    exact ⟨exec_jam_of_nop code hnop, hcharge.trans hcycles⟩

end Sys2Proof.Machine
end

section
/-! Proofs of the stack, flag and no-operation family (45_stack_flags_misc.md): pushes and pulls of one byte, the seven flag
instructions, and the NOPs, official and undocumented. -/

namespace Sys2Proof.Machine

/-! ## Pushes and pulls (45_stack_flags_misc.md R343 to R346) -/

theorem exec_pha_eq (s : State) : exec .pha s = .next (s.push s.a) := rfl

theorem exec_php_eq (s : State) : exec .php s = .next (s.push { s.p with b := true, u := true }.toByte) :=
  congrArg (fun v => Host.Outcome.next (s.push v)) s.p.phpByte_eq

theorem exec_pla_eq (s : State) :
    exec .pla s = .next { s.popped with a := s.popByte, p := withNZ s.p s.popByte } :=
  congrArg Host.Outcome.next ((s.popped.setA s.popByte).setNZ_eq_withNZ s.popByte)

theorem exec_plp_eq (s : State) :
    exec .plp s = .next { s.popped with p := { Flags.ofByte s.popByte with b := false, u := true } } :=
  congrArg (fun f => Host.Outcome.next (s.popped.setP f)) (Flags.popped_eq s.popByte)

/-- Settles O54: the next states are `push` and `popped` written out. -/
theorem stackInstructions : Obligations.StackInstructions :=
  ⟨⟨rfl, rfl, rfl, rfl, rfl⟩, ⟨rfl, rfl, rfl, rfl, rfl⟩, ⟨rfl, rfl, rfl, rfl, rfl⟩, ⟨rfl, rfl, rfl, rfl, rfl⟩,
    fun s => ⟨exec_pha_eq s, exec_php_eq s, exec_pla_eq s, exec_plp_eq s⟩⟩

/-! ## The round trip (45_stack_flags_misc.md R355) -/

theorem State.read_popped_push_other (s : State) (v : Byte) {k : Nat} (h : k ≠ stackIndex s.sp) :
    (s.push v).popped.ram.read k = s.ram.read k :=
  s.ram.read_write_other v h

theorem State.read_popped16_push16_other (s : State) (w : Word) {k : Nat} (hhigh : k ≠ stackIndex s.sp)
    (hlow : k ≠ stackIndex (s.sp - 1)) : (s.push16 w).popped16.ram.read k = s.ram.read k :=
  calc (s.push16 w).popped16.ram.read k
    _ = (s.push (hi w)).ram.read k := (s.push (hi w)).read_popped_push_other (lo w) hlow
    _ = s.ram.read k := s.read_popped_push_other (hi w) hhigh

theorem exec_pla_push (v : Byte) (s : State) :
    exec .pla (s.push v) = .next { (s.push v).popped with a := v, p := withNZ s.p v } := by
  rw [exec_pla_eq, State.popByte_push, State.push_p]

theorem exec_plp_push_toByte (f : Flags) (s : State) :
    exec .plp (s.push f.toByte) = .next { (s.push f.toByte).popped with p := { f with b := false, u := true } } := by
  rw [exec_plp_eq, State.popByte_push, Flags.ofByte_toByte]

/-- Settles O55: a pull gets the byte pushed and puts SP back; PLP then overwrites the two bits PHP set. -/
theorem pushThenPop : Obligations.PushThenPop := fun v w s =>
  ⟨⟨s.popByte_push v, s.push_popped_sp v, fun _ => s.read_popped_push_other v⟩,
    ⟨s.popWord_push16 w, s.push16_popped16_sp w, fun _ => s.read_popped16_push16_other w⟩,
    ⟨_, _, exec_pha_eq s, exec_pla_push s.a s, rfl, s.push_popped_sp s.a, rfl⟩,
    ⟨_, _, exec_php_eq s, exec_plp_push_toByte _ s, rfl, s.push_popped_sp _, rfl⟩⟩

/-! ## Flags (45_stack_flags_misc.md R347 to R353) -/

/-- Settles O56: each flag instruction is a write of P, in a row of one byte and two cycles. -/
theorem flagInstructions : Obligations.FlagInstructions :=
  ⟨⟨rfl, rfl, rfl, rfl, rfl⟩, ⟨rfl, rfl, rfl, rfl, rfl⟩, ⟨rfl, rfl, rfl, rfl, rfl⟩, ⟨rfl, rfl, rfl, rfl, rfl⟩,
    ⟨rfl, rfl, rfl, rfl, rfl⟩, ⟨rfl, rfl, rfl, rfl, rfl⟩, ⟨rfl, rfl, rfl, rfl, rfl⟩,
    fun _ => ⟨rfl, rfl, rfl, rfl, rfl, rfl, rfl⟩⟩

/-! ## No-operations (45_stack_flags_misc.md R354, 46_undocumented.md R391 to R393) -/

/-- An instruction of one mode that carries its opcode byte, one of `codes`: the cycles and the `+p` mark are the opcode map's. -/
theorem hasRow_of_codes {k : Byte → Instr} {codes : List Byte} {cycles : Nat} {cross : Bool}
    (hcode : ∀ c ∈ codes, (k c).opcode? = some c)
    (hrows : ∀ c ∈ codes, (opRow? c).map (fun r => (r.cycles, r.cross)) = some (cycles, cross)) (code : Byte) (h : code ∈ codes) :
    HasRow (k code) code (k code).length cycles cross := by
  obtain ⟨r, hr, heq⟩ := Option.map_eq_some_iff.mp (hrows code h)
  obtain ⟨rfl, rfl⟩ := Prod.mk.inj heq
  have hop := hcode code h
  have hrow? := (row?_of_opcode hop).trans hr
  exact ⟨wellFormed_iff_opcode.mpr ⟨code, hop⟩, hop, rfl, by simp [Instr.baseCycles, hrow?], by simp [Instr.crossPenalty, hrow?]⟩

theorem mode_of_mem_nopMemoryCodes (m : Mode) : ∀ c ∈ nopMemoryCodes m, (opRow? c).map OpRow.mode = some m := by
  cases m <;> decide

/-- The opcode byte of a NOP with a memory operand settles its mode, since the opcode map has one row for the byte. -/
theorem opcode_nopMemory {m : Mode} {code : Byte} (h : code ∈ nopMemoryCodes m) (o : Operand) :
    (Instr.nopMemory code o).opcode? = codeFor o.mode [(m, code)] := by
  have hmem : code ∈ nopMemoryCodes o.mode ↔ o.mode = m := by
    refine ⟨fun ho => ?_, fun heq => heq ▸ h⟩
    exact Option.some.inj ((mode_of_mem_nopMemoryCodes _ _ ho).symm.trans (mode_of_mem_nopMemoryCodes m _ h))
  simp only [Instr.opcode?, codeFor, hmem]

theorem hasRows_nopMemory {m : Mode} {cycles : Nat} {cross : Bool}
    (hrows : ∀ c ∈ nopMemoryCodes m, (opRow? c).map (fun r => (r.cycles, r.cross)) = some (cycles, cross)) :
    ∀ code ∈ nopMemoryCodes m, HasRows (.nopMemory code) [(m, code, cycles, cross)] := fun code h =>
  hasRows_of_opcode (opcode_nopMemory h) (List.forall_mem_singleton.mpr (hrows code h))

/-- Settles O57: a NOP with a memory operand is a load that drops the byte; its rows are those of its byte's one mode. -/
theorem nopInstructions : Obligations.NopInstructions :=
  ⟨⟨rfl, rfl, rfl, rfl, rfl⟩, hasRow_of_codes (k := .nopImplied) (fun _ h => if_pos h) (by decide),
    fun imm => hasRow_of_codes (k := (.nopImmediate · imm)) (fun _ h => if_pos h) (by decide),
    hasRows_nopMemory (m := .zeroPage) (by decide), hasRows_nopMemory (m := .zeroPageX) (by decide),
    hasRows_nopMemory (m := .absolute) (by decide) 0x0C (by decide), hasRows_nopMemory (m := .absoluteX) (by decide),
    fun _ => loadSpec_of rfl fun _ _ => rfl, fun _ _ _ => ⟨rfl, rfl, rfl⟩⟩

end Sys2Proof.Machine
end

section
/-! Proofs of the undocumented family (46_undocumented.md): the read-modify-writes that go on to A, the immediate combinations,
and the unstable stores. -/

namespace Sys2Proof.Machine

/-! ## Read-modify-write and then A (46_undocumented.md R371 to R374, R377, R378) -/

/-- A read-modify-write in memory modes only, with its byte `f` and its effect `g` as the model computes them and `f'` and `g'` as
the statement writes them. -/
theorem rmwSpec_of_eq {k : Operand → Instr} {f f' : Bool → Byte → Byte} {g g' : Bool → Byte → State → State}
    (himm : ∀ b, (k (.imm b)).wellFormed = false) (hf : ∀ c m, f c m = f' c m) (hg : ∀ c m t, g c m t = g' c m t)
    (hexec : ∀ o s, exec (k o) s = onRmw o (f s.p.c) s (g s.p.c)) : RmwSpec k f' g' := by
  obtain rfl : f = f' := funext₂ hf
  obtain rfl : g = g' := funext₃ hg
  exact rmwSpec_of (resolves_of_ne_acc himm) fun o s _ => hexec o s

theorem State.setC_setANZ_eq (t : State) (c : Bool) (r : Byte) :
    (t.setP (t.p.setC c)).setANZ r = { t with a := r, p := withShift t.p c r } :=
  (t.setP (t.p.setC c)).setANZ_eq_withNZ r

/-- SLO, RLA and SRE: a shift of memory, and then `op` of A and the byte written. -/
theorem rmwSpec_of_shiftThen {k : Operand → Instr} {core : Bool → Byte → Byte × Bool} {result : Bool → Byte → Byte}
    {out : Byte → Bool} (op : Byte → Byte → Byte) (hcore : ∀ c v, core c v = (result c v, out v))
    (himm : ∀ b, (k (.imm b)).wellFormed = false)
    (hexec : ∀ o s, exec (k o) s = onRmw o (fun v => (core s.p.c v).1) s fun v t =>
      (t.setP (t.p.setC (core s.p.c v).2)).setANZ (op t.a (core s.p.c v).1)) :
    RmwSpec k result fun c m t =>
      { t with a := op t.a (result c m), p := withShift t.p (out m) (op t.a (result c m)) } := by
  simp only [hcore, State.setC_setANZ_eq] at hexec
  exact rmwSpec_of_eq himm (fun _ _ => rfl) (fun _ _ _ => rfl) hexec

/-- RRA adds the byte it wrote, with the bit the rotate moved out as the carry (R374). -/
theorem rmwSpec_rra : RmwSpec .rra (fun c m => shiftedRight m c) fun c m t => withSum t (shiftedRight m c) (lowBit m) := by
  have heffect : ∀ c m (t : State), t.addToA (rorCore m c).1 (rorCore m c).2 = withSum t (shiftedRight m c) (lowBit m) := by
    intro c m t
    rw [rorCore_eq, addToA_eq]
  exact rmwSpec_of_eq (fun _ => rfl) (fun c m => congrArg Prod.fst (rorCore_eq m c)) heffect fun _ _ => rfl

/-- Settles O58: the rows from the "Encoding" lines; SLO, RLA and SRE are one shape with three cores and operations, and RRA, DCP
and ISB go on as ADC, CMP and SBC do. -/
theorem combinedRmwInstructions : Obligations.CombinedRmwInstructions := by
  refine ⟨?_, rmwSpec_of_shiftThen (· ||| ·) (fun _ => aslCore_eq) (fun _ => rfl) fun _ _ => rfl,
    rmwSpec_of_shiftThen (· &&& ·) (fun c v => rolCore_eq v c) (fun _ => rfl) fun _ _ => rfl,
    rmwSpec_of_shiftThen (· ^^^ ·) (fun _ => lsrCore_eq) (fun _ => rfl) fun _ _ => rfl, rmwSpec_rra, ?_, ?_⟩
  · simp only [List.forall_mem_cons]
    exact ⟨hasRows_of_opcode (fun _ => rfl) (by decide), hasRows_of_opcode (fun _ => rfl) (by decide),
      hasRows_of_opcode (fun _ => rfl) (by decide), hasRows_of_opcode (fun _ => rfl) (by decide),
      hasRows_of_opcode (fun _ => rfl) (by decide), hasRows_of_opcode (fun _ => rfl) (by decide), List.forall_mem_nil _⟩
  · exact rmwSpec_of_eq (f := fun _ m => m - 1) (fun _ => rfl) (fun _ _ => rfl)
      (fun _ m t => congrArg t.setP (compare_eq t.p t.a (m - 1))) fun _ _ => rfl
  · exact rmwSpec_of_eq (f := fun _ m => m + 1) (fun _ => rfl) (fun _ _ => rfl)
      (fun _ m t => subFromA_eq t (m + 1)) fun _ _ => rfl

/-! ## Immediate combinations (46_undocumented.md R379 to R382, R385, R386) -/

/-- ANC's carry is N of its result, as if the result had been shifted left (R379). -/
theorem Flags.setAnc_eq (f : Flags) (r : Byte) : f.setAnc r = withShift f (topBit r) r := by
  simp only [Flags.setAnc, setNZ_eq, byte_bit7]
  rfl

/-- ARR's V is the exclusive or of bits 6 and 5 of its result (R381). -/
theorem Flags.setArr_eq (f : Flags) (r : Byte) :
    f.setArr r = withNZ { f with
      c := decide (64 ≤ r.toNat % 128)
      v := decide (¬ (64 ≤ r.toNat % 128 ↔ 32 ≤ r.toNat % 64)) } r := by
  have hxor : ∀ p q : Prop, [Decidable p] → [Decidable q] → Bool.xor (decide p) (decide q) = decide (¬ (p ↔ q)) := by
    intro p q _ _
    by_cases hp : p <;> by_cases hq : q <;> simp [hp, hq]
  rw [← hxor, ← byte_bit6, ← byte_bit5, ← setNZ_eq]
  rfl

theorem exec_anc_eq (code imm : Byte) (s : State) :
    exec (.anc code imm) s = .next { s with
      a := s.a &&& imm, p := withShift s.p (topBit (s.a &&& imm)) (s.a &&& imm) } := by
  rw [← Flags.setAnc_eq]
  rfl

theorem exec_alr_eq (imm : Byte) (s : State) :
    exec (.alr imm) s = .next { s with
      a := shiftedRight (s.a &&& imm) false
      p := withShift s.p (lowBit (s.a &&& imm)) (shiftedRight (s.a &&& imm) false) } := by
  show execAlr imm s = _
  simp only [execAlr, lsrCore_eq, Flags.setShift_eq_withShift]
  rfl

theorem exec_arr_eq (imm : Byte) (s : State) :
    let r := shiftedRight (s.a &&& imm) s.p.c
    exec (.arr imm) s = .next { s with
      a := r
      p := withNZ { s.p with
        c := decide (64 ≤ r.toNat % 128)
        v := decide (¬ (64 ≤ r.toNat % 128 ↔ 32 ≤ r.toNat % 64)) } r } := by
  show execArr imm s = _
  simp only [execArr, arrResult_eq, Flags.setArr_eq]
  rfl

/-- Settles O59: each is a write of registers and P, with the flags of a shift, a compare or a result byte. -/
theorem immediateCombinations : Obligations.ImmediateCombinations := fun imm s =>
  ⟨⟨rfl, rfl, rfl, rfl, rfl⟩, ⟨rfl, rfl, rfl, rfl, rfl⟩, ⟨rfl, rfl, rfl, rfl, rfl⟩, ⟨rfl, rfl, rfl, rfl, rfl⟩,
    ⟨rfl, rfl, rfl, rfl, rfl⟩, ⟨rfl, rfl, rfl, rfl, rfl⟩, ⟨rfl, rfl, rfl, rfl, rfl⟩,
    fun code => exec_anc_eq code imm s, exec_alr_eq imm s, exec_arr_eq imm s,
    congrArg (fun f => Host.Outcome.next ((s.setX ((s.a &&& s.x) - imm)).setP f)) (compare_eq s.p (s.a &&& s.x) imm),
    congrArg Host.Outcome.next (s.setANZ_eq_withNZ _), congrArg Host.Outcome.next ((s.setX _).setANZ_eq_withNZ _)⟩

/-! ## Unstable stores (46_undocumented.md R421, R387 to R390) -/

theorem unstableByte_eq (o : Operand) (r : Byte) (s : State) :
    unstableByte o r s = if s.params.unstableStore = .formula then r &&& BitVec.ofNat 8 ((baseAddr o s).toNat / 256 + 1)
      else Config.unstableByte s.draws := by
  unfold unstableByte
  rw [BitVec.ofNat_add, ← hi_eq]
  cases s.params.unstableStore <;> rfl

theorem unstableDraw_eq (s : State) :
    unstableDraw s = if s.params.unstableStore = .formula then s else { s with draws := s.draws + 1 } := by
  unfold unstableDraw
  cases s.params.unstableStore <;> rfl

/-- The draw changes neither where a store goes nor whether it completes. -/
theorem ea_unstableDraw (o : Operand) (s : State) : ea o (unstableDraw s) = ea o s := by
  unfold unstableDraw
  cases s.params.unstableStore <;> rfl

theorem writeOk_unstableDraw (a : Word) (v : Byte) (s : State) : WriteOk a v (unstableDraw s) ↔ WriteOk a v s := by
  unfold unstableDraw
  cases s.params.unstableStore <;> exact Iff.rfl

/-- Every unstable store, in the state with SP set first: neither its address nor its byte looks at SP. -/
theorem unstableSpec_of {i : Instr} {o : Operand} {r n : Byte} {s : State} (hres : resolves o = true)
    (hexec : exec i s = unstableStore o r { s with sp := n }) : UnstableSpec i o r { s with sp := n } s := by
  unfold UnstableSpec
  intro v w
  have hbyte : unstableByte o r { s with sp := n } = v := unstableByte_eq o r _
  have hdraw : unstableDraw { s with sp := n } = w := unstableDraw_eq _
  have hea : ea o w = ea o s := hdraw ▸ ea_unstableDraw o { s with sp := n }
  have hok : WriteOk (ea o s) v w ↔ WriteOk (ea o s) v s := hdraw ▸ writeOk_unstableDraw (ea o s) v { s with sp := n }
  have hstore : exec i s = outcome (memWrite (ea o s) v w) := by
    rw [hexec, unstableStore, hbyte, hdraw, store_eq _ _ hres, hea]
  refine ⟨fun h => ?_, fun h => ?_⟩
  · obtain ⟨t, ht⟩ := memWrite_next (hok.mpr h)
    exact ⟨t, ht, by rw [hstore, ht]; rfl, storeFrame_memWrite ht⟩
  · obtain ⟨e, he⟩ := memWrite_error (mt hok.mp h)
    exact ⟨e, he, by rw [hstore, he]; rfl⟩

/-- Settles O60: each is an unstable store of its register byte; TAS's happens in the state with SP set. -/
theorem unstableStores : Obligations.UnstableStores :=
  ⟨hasRows_of_opcode (fun _ => rfl) (by decide),
    fun o s h => unstableSpec_of (n := s.sp) (resolves_of_wellFormed rfl (fun _ => rfl) o h) rfl,
    fun _ s => ⟨⟨rfl, rfl, rfl, rfl, rfl⟩, ⟨rfl, rfl, rfl, rfl, rfl⟩, ⟨rfl, rfl, rfl, rfl, rfl⟩,
      unstableSpec_of (n := s.sp) rfl rfl, unstableSpec_of (n := s.sp) rfl rfl, unstableSpec_of rfl rfl⟩⟩

end Sys2Proof.Machine
end

section
/-! Proofs of the exceptions family, NMI: the state an NMI entry leaves, and the return from it (60_exceptions.md R454 to R460). -/

namespace Sys2Proof.Machine

/-! ## NMI entry -/

/-- A vector's byte is the byte a CPU read gives there. -/
theorem prgByte_eq_readByte {a : Word} (s : State) (h : 0x8000 ≤ a.toNat) : prgByte a s = readByte a s := by
  simp only [prgByte, readByte, region_of_prg _ h]

theorem vector_FFFA (s : State) :
    vector 0xFFFA s = BitVec.ofNat 16 (256 * (readByte 0xFFFB s).toNat + (readByte 0xFFFA s).toNat) := by
  rw [vector, w16_eq, prgByte_eq_readByte s (a := 0xFFFA) (by decide), prgByte_eq_readByte s (a := 0xFFFA + 1) (by decide)]
  rfl

theorem byte_sub_three (n : Byte) : n - 2 - 1 = n - 3 := by
  bv_omega

/-- The pushes leave the vector and the other flags as they were. -/
theorem nmiEntry_eq_updates (s : State) :
    nmiEntry s = ((((s.push16 s.pc).push s.p.nmiByte).setP { s.p with i := true }).tick s.params.nmiCycles).setPC
      (vector 0xFFFA s) := by
  simp [nmiEntry, State.push16, vector, prgByte]

theorem nmiEntry_eq (s : State) : nmiEntry s = { s with
    ram := ((s.ram.write (0x100 + s.sp.toNat) (BitVec.ofNat 8 (s.pc.toNat / 256))).write (0x100 + (s.sp - 1).toNat)
      (BitVec.ofNat 8 (s.pc.toNat % 256))).write (0x100 + (s.sp - 2).toNat) { s.p with b := false, u := true }.toByte
    sp := s.sp - 3
    p := { s.p with i := true }
    pc := BitVec.ofNat 16 (256 * (readByte 0xFFFB s).toNat + (readByte 0xFFFA s).toNat)
    ctx := { s.ctx with cyc := s.ctx.cyc + s.params.nmiCycles } } := by
  rw [nmiEntry_eq_updates, vector_FFFA, State.push16_eq, Flags.nmiByte_eq, ← byte_sub_three]
  simp only [State.push, stackIndex]
  rfl

theorem serviceNmi_of_not_pending {s : State} (h : s.ppu.nmiPending = false) : serviceNmi s = s :=
  if_neg (by simp [h])

theorem serviceNmi_of_pending {s : State} (h : s.ppu.nmiPending = true) :
    serviceNmi s = nmiEntry (s.setPpu { s.ppu with nmiPending := false }) :=
  if_pos h

/-- Settles O6: the pushes of an NMI entry as writes of RAM, and its vector as two reads. -/
theorem nmiEntryEffect : Obligations.NmiEntryEffect := by
  refine ⟨rfl, fun s => ⟨serviceNmi_of_not_pending, fun h => ?_⟩⟩
  rw [serviceNmi_of_pending h, nmiEntry_eq]
  rfl

/-! ## The return -/

/-- A push and its pull leave the word above them on the stack as it was. -/
theorem State.popWord_popped_push (s : State) (v : Byte) : (s.push v).popped.popWord = s.popWord := by
  have hne : ∀ d : Byte, d ≠ 0 → 0x100 + (s.sp + d).toNat ≠ stackIndex s.sp := by
    intro d hd
    unfold stackIndex
    bv_omega
  rw [State.popWord_eq, State.popWord_eq, State.push_popped_sp, State.popped_ram, State.push_ram,
    Memory.read_write_other _ _ (hne 2 (by decide)), Memory.read_write_other _ _ (hne 1 (by decide))]

/-- A pull looks at RAM and SP only. -/
theorem State.popWord_popped_congr {s t : State} (hram : t.ram = s.ram) (hsp : t.sp = s.sp) :
    t.popped.popWord = s.popped.popWord := by
  simp [State.popWord_eq, hram, hsp]

/-- RTI pulls the byte and the word that the entry pushed. -/
theorem exec_rti_nmiEntry (s : State) :
    exec .rti (nmiEntry s) =
      .next { nmiEntry s with sp := s.sp, p := { s.p with b := false, u := true }, pc := s.pc } := by
  have hbyte : (nmiEntry s).popByte = s.p.nmiByte := by
    rw [nmiEntry_eq_updates]
    exact (s.push16 s.pc).popByte_push s.p.nmiByte
  have hword : (nmiEntry s).popped.popWord = s.pc := by
    rw [nmiEntry_eq_updates, State.popWord_popped_congr (s := (s.push16 s.pc).push s.p.nmiByte) (by simp) (by simp),
      State.popWord_popped_push, State.popWord_push16]
  have hsp : (nmiEntry s).popped.sp + 2 = s.sp := by
    rw [State.popped_sp, nmiEntry_eq]
    bv_omega
  rw [exec_rti_eq, hbyte, hword, Flags.popped_eq, Flags.nmiByte_eq, Flags.ofByte_toByte, State.popped16_eq, hsp]
  generalize nmiEntry s = u
  rfl

/-- Settles O7: beyond what RTI gives back, the entry wrote I, the cycle count and three bytes of RAM. -/
theorem rtiUndoesNmiEntry : Obligations.RtiUndoesNmiEntry := by
  intro s
  have hrti := exec_rti_nmiEntry s
  rw [nmiEntry_eq] at hrti ⊢
  refine ⟨_, hrti, rfl, rfl, rfl, rfl, rfl, rfl, rfl, rfl, fun k h0 h1 h2 => ?_⟩
  show Memory.read (Memory.write _ _ _) k = _
  rw [Memory.read_write_other _ _ h2, Memory.read_write_other _ _ h1, Memory.read_write_other _ _ h0]

end Sys2Proof.Machine
end

section
/-! Proofs of the exceptions family, faults: which faults a part of a step can raise, and what the fault of a step leaves unchanged
(60_exceptions.md R430 to R434). -/

namespace Sys2Proof.Machine

/-! ## Faults of accesses -/

/-- The causes that a CPU read or write raises (60_exceptions.md R434). -/
def FaultCause.ofAccess : FaultCause → Bool
  | .romWriteAttempt _ _ _ | .ppuWriteOnlyRead _ | .ppuStatusWrite _ _ => true
  | .unknownOpcode | .invalidAddressingModeUse _ => false

/-- What no part of a step before its bus tick changes: bus and PPU time, frame events, ROMs, mirroring, parameters, handler. -/
def State.lasting (s : State) :=
  (s.busCycles, s.ppu.scanline, s.ppu.dot, s.frameEvents, s.prg, s.prgSize, s.ppu.chr, s.ppu.mirroring, s.params, s.handler)

/-- What no part of an instruction changes: `State.lasting` and what a fault's info says of the instruction (R430). -/
def State.ofInstr (s : State) := (s.lasting, s.ctx.opAddr, s.ctx.opcode)

theorem ofInstr_of_sameCore {s t : State} (h : SameCore s t) : t.ofInstr = s.ofInstr := by
  unfold SameCore at h
  simp only [State.ofInstr, State.lasting, h]

/-- The fault was raised by an access, in a state of the same instruction as `s`. -/
def AccessFault (s : State) (f : Fault) : Prop := ∃ c t, f = faultAt c t ∧ c.ofAccess = true ∧ t.ofInstr = s.ofInstr

theorem AccessFault.trans {s t : State} {f : Fault} (h : AccessFault t f) (hst : t.ofInstr = s.ofInstr) : AccessFault s f := by
  obtain ⟨c, u, hf, hc, hu⟩ := h
  exact ⟨c, u, hf, hc, hu.trans hst⟩

theorem accessFault_faultAt {c : FaultCause} (s : State) (hc : c.ofAccess = true) : AccessFault s (faultAt c s) :=
  ⟨c, s, rfl, hc, rfl⟩

theorem ofAccess_of_writeFault? {a : Word} {v : Byte} {s : State} {c : FaultCause} (h : writeFault? a v s = some c) :
    c.ofAccess = true := by
  unfold writeFault? at h
  split at h
  · split at h <;> cases h; rfl
  · split at h <;> cases h; rfl
  · cases h; rfl
  · cases h

theorem oamDma_eq_error {pg : Byte} {s : State} {f : Fault} (h : oamDma pg s = .error f) :
    f = faultAt (.ppuWriteOnlyRead (w16 pg 0)) s := by
  unfold oamDma at h
  by_cases hok : DmaOk pg s
  · obtain ⟨t, ht⟩ := dmaCopy_next (n := 256) hok
    rw [ht] at h
    cases h
  · rw [dmaCopy_fault hok] at h
    cases h
    rfl

/-- A write that faults does so before any effect: an OAM DMA that faults does so at its first byte. -/
theorem memWrite_eq_error {a : Word} {v : Byte} {s : State} {f : Fault} (h : memWrite a v s = .error f) :
    ∃ c, f = faultAt c s ∧ c.ofAccess = true := by
  unfold memWrite at h
  split at h
  · next c hc => cases h; exact ⟨c, raise_eq_faultAt c s, ofAccess_of_writeFault? hc⟩
  · split at h
    case h_9 => exact ⟨_, oamDma_eq_error h, rfl⟩
    all_goals cases h

theorem accessFault_memWrite {a : Word} {v : Byte} {s : State} {f : Fault} (h : memWrite a v s = .error f) :
    AccessFault s f := by
  obtain ⟨c, rfl, hc⟩ := memWrite_eq_error h
  exact accessFault_faultAt s hc

/-! ## Faults of instructions -/

/-- The outcome is a next state or an access's fault in a state of the same instruction as `s`. -/
def OnlyAccessFaults (s : State) : Host.Outcome State Fault Refusal → Prop
  | .next _ => True
  | .fault f => AccessFault s f
  | .refused _ => False

theorem OnlyAccessFaults.trans {s t : State} {r : Host.Outcome State Fault Refusal} (h : OnlyAccessFaults t r)
    (hst : t.ofInstr = s.ofInstr) : OnlyAccessFaults s r := by
  match r, h with
  | .next _, _ => trivial
  | .fault _, h => exact AccessFault.trans h hst

theorem onlyAccessFaults_onLoad {i : Instr} {o : Operand} (s : State) (k : Byte → State → State) (ho : o ≠ .acc) :
    OnlyAccessFaults s (onLoad i o s k) := by
  by_cases h : OperandOk o s
  · rw [onLoad, load_ok h]
    trivial
  · rw [onLoad, load_fault ho h]
    exact accessFault_faultAt s rfl

theorem onlyAccessFaults_outcome_memWrite (a : Word) (v : Byte) {s u : State} (hu : u.ofInstr = s.ofInstr) :
    OnlyAccessFaults s (outcome (memWrite a v u)) := by
  cases h : memWrite a v u with
  | ok t => trivial
  | error f => exact (accessFault_memWrite h).trans hu

theorem onlyAccessFaults_store {o : Operand} (v : Byte) {s u : State} (ho : resolves o = true) (hu : u.ofInstr = s.ofInstr) :
    OnlyAccessFaults s (outcome (store o v u)) := by
  rw [store_eq v u ho]
  exact onlyAccessFaults_outcome_memWrite _ v hu

theorem onlyAccessFaults_unstableStore {o : Operand} (r : Byte) {s u : State} (ho : resolves o = true)
    (hu : u.ofInstr = s.ofInstr) : OnlyAccessFaults s (unstableStore o r u) := by
  refine onlyAccessFaults_store _ ho (Eq.trans ?_ hu)
  unfold unstableDraw
  split <;> rfl

theorem onlyAccessFaults_onRmw {o : Operand} (f : Byte → Byte) (s : State) (k : Byte → State → State)
    (ho : o ≠ .acc → resolves o = true) : OnlyAccessFaults s (onRmw o f s k) := by
  by_cases hacc : o = .acc
  · subst hacc
    trivial
  rw [onRmw, rmw_eq f s (ho hacc)]
  by_cases hr : ReadOk (ea o s) s
  · rw [memRead_ok hr]
    dsimp only
    cases h : memWrite (ea o s) (f (readByte (ea o s) s)) (afterRead (ea o s) s) with
    | ok t => trivial
    | error e => exact (accessFault_memWrite h).trans (ofInstr_of_sameCore (sameCore_afterRead _ s))
  · rw [memRead_fault hr]
    exact accessFault_faultAt s rfl

theorem onlyAccessFaults_jmpInd (w : Word) (s : State) : OnlyAccessFaults s (exec (.jmpInd w) s) := by
  by_cases hlow : ReadOk w s
  · by_cases hhigh : ReadOk (jmpIndHigh w) (afterRead w s)
    · rw [exec_jmpInd_of_readOk hlow hhigh]
      trivial
    · rw [exec_jmpInd_of_high_fault hlow hhigh]
      exact (accessFault_faultAt _ rfl).trans (ofInstr_of_sameCore (sameCore_afterRead w s))
  · rw [exec_jmpInd_of_low_fault hlow]
    exact accessFault_faultAt s rfl

theorem onlyAccessFaults_branch (cond : Bool) (off : Byte) (s : State) : OnlyAccessFaults s (branch cond off s) := by
  cases cond <;> trivial

theorem onlyAccessFaults_jam (s : State) : OnlyAccessFaults s (execJam s) := by
  unfold execJam
  split <;> trivial

/-- A well-formed instruction has an operand form with an address wherever it asks for one (60_exceptions.md R433). -/
theorem onlyAccessFaults_exec {i : Instr} (s : State) (hwf : i.wellFormed = true) : OnlyAccessFaults s (exec i s) := by
  cases i with
  | lda o | ldx o | ldy o | adc o | sbc o | and o | ora o | eor o | cmp o | cpx o | cpy o | bit o | lax o =>
    exact onlyAccessFaults_onLoad s _ (by rintro rfl; cases hwf)
  | nopMemory code o =>
    exact onlyAccessFaults_onLoad s _ (by rintro rfl; simp [Instr.wellFormed, nopMemoryCodes, Operand.mode] at hwf)
  | las base => exact onlyAccessFaults_onLoad s _ (by simp)
  | inc o | dec o | asl o | lsr o | rol o | ror o | slo o | rla o | sre o | rra o | dcp o | isb o =>
    exact onlyAccessFaults_onRmw _ s _ (resolves_of_ne_acc (fun _ => rfl) o hwf)
  | sta o | stx o | sty o | sax o => exact onlyAccessFaults_store _ (resolves_of_wellFormed rfl (fun _ => rfl) o hwf) rfl
  | ahx o => exact onlyAccessFaults_unstableStore _ (resolves_of_wellFormed rfl (fun _ => rfl) o hwf) rfl
  | shx base | shy base | tas base => exact onlyAccessFaults_unstableStore _ rfl rfl
  | bcc off | bcs off | beq off | bne off | bmi off | bpl off | bvc off | bvs off => exact onlyAccessFaults_branch _ off s
  | jmpInd ptr => exact onlyAccessFaults_jmpInd ptr s
  | jam code => exact onlyAccessFaults_jam s
  | tax | tay | txa | tya | tsx | txs | inx | iny | dex | dey => trivial
  | jmp target | jsr target => trivial
  | rts | rti | brk | pha | php | pla | plp | clc | cld | cli | clv | sec | sed | sei | nop => trivial
  | alr imm | arr imm | axs imm | sbcEB imm | xaa imm | lxa imm => trivial
  | anc code imm | nopImmediate code imm => trivial
  | nopImplied code => trivial

/-! ## Fetches -/

@[simp] theorem fetchedBytes_setCtx (n : Nat) (s : State) (c : StepCtx) :
    fetchedBytes n (s.setCtx c) = fetchedBytes n s := by
  induction n generalizing s with
  | zero => rfl
  | succ n ih => rw [fetchedBytes, fetchedBytes, pastByte_setCtx, ih]; rfl

@[simp] theorem length_fetchedBytes (n : Nat) (s : State) : (fetchedBytes n s).length = n := by
  induction n generalizing s with
  | zero => rfl
  | succ n ih => rw [fetchedBytes, List.length_cons, ih]

theorem ofInstr_pastByte (s : State) : (pastByte s).ofInstr = s.ofInstr :=
  calc (pastByte s).ofInstr
    _ = (afterRead s.pc s).ofInstr := rfl
    _ = s.ofInstr := ofInstr_of_sameCore (sameCore_afterRead s.pc s)

theorem ofInstr_afterFetches (n : Nat) (s : State) : (afterFetches n s).ofInstr = s.ofInstr := by
  induction n generalizing s with
  | zero => rfl
  | succ n ih => rw [afterFetches, ih, ofInstr_pastByte]

/-- Operand fetches that all complete build the row's instruction of the bytes they read. -/
theorem fetchOperands_ok {r : OpRow} {s : State} (h : Fetchable r.mode.operandBytes s) :
    fetchOperands r s =
      .ok (ofBytes r.build (fetchedBytes r.mode.operandBytes s), afterFetches r.mode.operandBytes s) := by
  have hle := r.mode.operandBytes_le
  unfold fetchOperands
  generalize r.mode.operandBytes = n at h hle ⊢
  match n, hle, h with
  | 0, _, _ => rfl
  | 1, _, h => simp only [fetch8_ok h.1]; rfl
  | 2, _, h => simp only [fetch8_ok h.1, fetch8_ok h.2.1]; rfl

/-- Either all of the next `n` bytes can be fetched, or one of them is the first that cannot. -/
theorem fetchable_or_fault (n : Nat) (s : State) :
    Fetchable n s ∨ ∃ j < n, Fetchable j s ∧ ¬ ReadOk (afterFetches j s).pc (afterFetches j s) := by
  induction n generalizing s with
  | zero => exact .inl trivial
  | succ n ih =>
    by_cases hr : ReadOk s.pc s
    · rcases ih (pastByte s) with h | ⟨j, hj, hfetch, hfault⟩
      · exact .inl ⟨hr, h⟩
      · exact .inr ⟨j + 1, by omega, ⟨hr, hfetch⟩, hfault⟩
    · exact .inr ⟨0, by omega, trivial, hr⟩

/-! ## The step -/

theorem step_of_fetchInstr_ok {s t : State} {i : Instr} (hrun : s.cpuRun = .running)
    (h : fetchInstr (serviceNmi (s.setCtx StepCtx.idle)) = .ok (i, t)) : step s = runInstr i t := by
  simp only [step, hrun, h]

theorem onlyAccessFaults_runInstr {i : Instr} (s : State) (hwf : i.wellFormed = true) :
    OnlyAccessFaults s (runInstr i s) := by
  have hexec : OnlyAccessFaults s (exec i (chargeBase i s)) := onlyAccessFaults_exec (chargeBase i s) hwf
  unfold runInstr
  cases h : exec i (chargeBase i s) with
  | next t => trivial
  | fault f => rw [h] at hexec; exact hexec
  | refused r => rw [h] at hexec; exact hexec

/-- A running step from the fetch of its opcode byte on (60_exceptions.md R440): the opcode fetch faults, or every fault of the
step is an access's in the instruction of that byte. -/
theorem step_onlyAccessFaults {s : State} (hrun : s.cpuRun = .running) :
    let u := serviceNmi (s.setCtx StepCtx.idle)
    (¬ ReadOk u.pc u → step s = .fault (faultAt (.ppuWriteOnlyRead u.pc) (beginInstr u))) ∧
    (ReadOk u.pc u → OnlyAccessFaults ((pastByte u).setCtx (operandCtx u)) (step s)) := by
  intro u
  refine ⟨fun hfault => step_of_fetchInstr_error hrun (fetchInstr_opcode_fault hfault), fun hop => ?_⟩
  obtain ⟨r, hrow⟩ := opRow?_total (readByte u.pc u)
  have hfetch := fetchInstr_of_opcode hop hrow
  generalize (pastByte u).setCtx (operandCtx u) = v at hfetch ⊢
  rcases fetchable_or_fault r.mode.operandBytes v with hok | ⟨j, hj, hok, hfault⟩
  · obtain ⟨hcode, -⟩ := opRow?_encodes hrow (length_fetchedBytes r.mode.operandBytes v)
    have hstep := step_of_fetchInstr_ok hrun (hfetch.trans (fetchOperands_ok hok))
    have hexec := onlyAccessFaults_runInstr (afterFetches r.mode.operandBytes v) (wellFormed_iff_opcode.mpr ⟨_, hcode⟩)
    exact hstep ▸ hexec.trans (ofInstr_afterFetches _ v)
  · rw [step_of_fetchInstr_error hrun (hfetch.trans (fetchOperands_fault hj hok hfault))]
    exact (accessFault_faultAt _ rfl).trans (ofInstr_afterFetches j v)

theorem lasting_serviceNmi (s : State) : (serviceNmi s).lasting = s.lasting := by
  cases h : s.ppu.nmiPending
  · rw [serviceNmi_of_not_pending h]
  · rw [serviceNmi_of_pending h, nmiEntry_eq]
    rfl

/-- Every fault of a running step is raised by an access, in a state where the opcode byte is noted if its fetch completed. -/
theorem step_fault_cases {s : State} {f : Fault} (hrun : s.cpuRun = .running) (h : step s = .fault f) :
    let u := serviceNmi (s.setCtx StepCtx.idle)
    ∃ c t, f = faultAt c t ∧ c.ofAccess = true ∧ t.lasting = s.lasting ∧ t.ctx.opAddr = u.pc ∧
      (ReadOk u.pc u → t.ctx.opcode = some (readByte u.pc u)) ∧
      (¬ ReadOk u.pc u → t.ctx.opcode = none ∧ c = .ppuWriteOnlyRead u.pc) := by
  intro u
  have hlasting : u.lasting = s.lasting := lasting_serviceNmi _
  obtain ⟨hfetch, hrest⟩ := step_onlyAccessFaults hrun
  by_cases hop : ReadOk u.pc u
  · have honly := hrest hop
    rw [h] at honly
    obtain ⟨c, t, hf, hc, ht⟩ := honly
    obtain ⟨hlast, hnote⟩ := Prod.mk.inj ht
    obtain ⟨haddr, hcode⟩ := Prod.mk.inj hnote
    have hpast : (pastByte u).lasting = u.lasting := congrArg Prod.fst (ofInstr_pastByte u)
    exact ⟨c, t, hf, hc, (hlast.trans hpast).trans hlasting, haddr, fun _ => hcode, absurd hop⟩
  · have hf := h.symm.trans (hfetch hop)
    cases hf
    exact ⟨_, beginInstr u, rfl, rfl, hlasting, rfl, fun hok => absurd hok hop, fun _ => ⟨rfl, rfl⟩⟩

/-- Settles O9: the fault is raised in a state that differs from the first in nothing listed, and `faultAt` keeps that state. -/
theorem faultStopsTheStep : Obligations.FaultStopsTheStep := by
  intro s f hrun hstep u
  obtain ⟨c, t, rfl, -, hlasting, haddr, hcode, hnone⟩ := step_fault_cases hrun hstep
  simp only [State.lasting, Prod.mk.injEq] at hlasting
  obtain ⟨hbus, hline, hdot, hframe, hprg, hsize, hchr, hmir, hpar, hhandler⟩ := hlasting
  exact ⟨_, _, rfl, rfl, haddr, hcode, hnone, hbus, hline, hdot, hframe, hprg, hsize, hchr, hmir, hpar, hhandler, rfl, rfl⟩

theorem step_ne_refused {s : State} (hrun : s.cpuRun = .running) (r : Refusal) : step s ≠ .refused r := by
  intro hr
  obtain ⟨hfetch, hrest⟩ := step_onlyAccessFaults hrun
  rw [hr] at hfetch hrest
  by_cases hop : ReadOk (serviceNmi (s.setCtx StepCtx.idle)).pc (serviceNmi (s.setCtx StepCtx.idle))
  · exact hrest hop
  · cases hfetch hop

/-- Settles O10: only accesses fault, and their causes are others. -/
theorem onlyAccessFaultsHappen : Obligations.OnlyAccessFaultsHappen := by
  intro s hrun
  refine ⟨step_ne_refused hrun, fun info t ht => ?_⟩
  obtain ⟨c, v, hf, hc, -⟩ := step_fault_cases hrun ht
  cases hf
  refine ⟨fun h : c = _ => ?_, fun m (h : c = _) => ?_⟩
  · rw [h] at hc
    cases hc
  · rw [h] at hc
    cases hc

/-! ## The instruction that is run -/

theorem Instr.length_eq (i : Instr) : i.length = i.operandBytes.length + 1 := Nat.add_comm _ _

/-- The fetch of an instruction whose bytes can all be read. -/
theorem fetchInstr_of_decode {i : Instr} {op : Byte} {u : State} (hcode : i.opcode? = some op) (hfetch : Fetchable i.length u)
    (hdecode : decode (fetchedBytes i.length u) = .ok (i, [])) :
    readByte u.pc u = op ∧ fetchInstr u = .ok (i, (afterFetches i.length u).setCtx (operandCtx u)) := by
  rw [Instr.length_eq] at hfetch hdecode ⊢
  obtain ⟨hop, hrest⟩ := hfetch
  obtain ⟨op', r, bs, hrow, hlen, hbytes, hi⟩ := decode_eq_ok.mp hdecode
  obtain ⟨rfl, rfl⟩ : readByte u.pc u = op' ∧ fetchedBytes i.operandBytes.length (pastByte u) = bs := by
    simpa [fetchedBytes] using hbytes
  have hn : i.operandBytes.length = r.mode.operandBytes := (length_fetchedBytes _ _).symm.trans hlen
  have hsame : i.opcode? = some (readByte u.pc u) := hi ▸ (opRow?_encodes hrow hlen).1
  refine ⟨Option.some.inj (hsame.symm.trans hcode), ?_⟩
  rw [hn] at hrest hi ⊢
  have hoperands := fetchOperands_ok ((fetchable_setCtx _ _ (operandCtx u)).mpr hrest)
  rw [fetchInstr_of_opcode hop hrow, hoperands, fetchedBytes_setCtx, afterFetches_setCtx, ← hi]
  rfl

theorem pc_afterFetches (n : Nat) (s : State) : (afterFetches n s).pc = s.pc + BitVec.ofNat 16 n := by
  induction n generalizing s with
  | zero => exact (BitVec.add_zero s.pc).symm
  | succ n ih =>
    rw [afterFetches, ih, pastByte_pc, BitVec.add_assoc, Nat.add_comm n, BitVec.ofNat_add]
    rfl

/-- A read of RAM or PRG ROM completes and has no effect. -/
theorem read_of_placeable {a : Word} (s : State) (h : placeable a = true) : ReadOk a s ∧ afterRead a s = s := by
  simp only [placeable, decide_eq_true_eq] at h
  have hok : ReadOk a s := fun hppu => by omega
  exact ⟨hok, eq_of_memRead_of_plain (memRead_ok hok) (by omega)⟩

theorem codeBytes_setPC (n : Nat) (a w : Word) (s : State) : codeBytes (s.setPC w) n a = codeBytes s n a := by
  induction n generalizing a with
  | zero => rfl
  | succ n ih => rw [codeBytes, codeBytes, ih]; rfl

/-- Fetches in RAM and PRG ROM. -/
theorem fetches_of_inCodeMemory (n : Nat) (s : State) (h : inCodeMemory n s.pc = true) :
    Fetchable n s ∧ fetchedBytes n s = codeBytes s n s.pc ∧ afterFetches n s = s.setPC (s.pc + BitVec.ofNat 16 n) := by
  induction n generalizing s with
  | zero => exact ⟨trivial, rfl, congrArg s.setPC (BitVec.add_zero s.pc).symm⟩
  | succ n ih =>
    obtain ⟨hplace, hrest⟩ := Bool.and_eq_true_iff.mp h
    obtain ⟨hok, hread⟩ := read_of_placeable s hplace
    have hpast : pastByte s = s.setPC (s.pc + 1) := by
      rw [pastByte, hread]
      rfl
    obtain ⟨hfetch, hbytes, hafter⟩ := ih (s.setPC (s.pc + 1)) hrest
    refine ⟨⟨hok, hpast ▸ hfetch⟩, ?_, ?_⟩
    · rw [fetchedBytes, hpast, hbytes, codeBytes_setPC]
      rfl
    · rw [afterFetches, hpast, hafter, State.setPC_pc, BitVec.add_assoc, Nat.add_comm n, BitVec.ofNat_add]
      rfl

/-- Settles O5: the fetches give `i`, and what is left of the step is `runInstr i`. -/
theorem stepRunsTheDecodedInstruction : Obligations.StepRunsTheDecodedInstruction := by
  refine ⟨?_, fun n u => ⟨pc_afterFetches n u, fetches_of_inCodeMemory n u⟩⟩
  intro s i op hrun _ hcode u hfetch hdecode
  obtain ⟨rfl, hinstr⟩ := fetchInstr_of_decode hcode hfetch hdecode
  have hparams : ((afterFetches i.length u).setCtx (operandCtx u)).params = s.params :=
    (keeps_fetchInstr hinstr).params.trans (keeps_serviceNmi _).params
  have hcharge : chargeBase i ((afterFetches i.length u).setCtx (operandCtx u)) =
      (afterFetches i.length u).setCtx ⟨u.ctx.cyc + baseCharge s.params i, u.pc, some (readByte u.pc u)⟩ := by
    rw [chargeBase, hparams]
    rfl
  rw [step_of_fetchInstr_ok hrun hinstr, runInstr, hcharge]
  rfl

end Sys2Proof.Machine
end

section
/-! Proofs of the exceptions family, PPU registers: what a CPU access does at each register and its mirrors (60_exceptions.md R477 to
R489). -/

namespace Sys2Proof.Machine

/-! ## The register at an address -/

theorem ppuRegAt_offset (r : PpuReg) : ppuRegAt r.offset = r := by
  cases r <;> rfl

/-- The register of a given offset, at its own address and its mirrors (20_memory.md R84). -/
theorem region_of_offset (size : PrgSize) {a : Word} {r : PpuReg} (hlow : 0x2000 ≤ a.toNat) (hhigh : a.toNat < 0x4000)
    (h : a.toNat % 8 = r.offset) : region size a = .ppu r := by
  rw [region_of_register size hlow hhigh, ← ppuRegAt_offset (ppuRegAt a.toNat), offset_ppuRegAt, h, ppuRegAt_offset]

/-! ## Reads -/

theorem memRead_of_readable {a : Word} {s : State} {r : PpuReg} (h : region s.prgSize a = .ppu r) (hr : r.writeOnly = false) :
    memRead a s = .ok (readByte a s, afterRead a s) := by
  simp [memRead, readFault?, h, hr]

/-- The status bits over the low bits (R481), as the statements add them. -/
theorem Ppu.statusByte_eq (p : Ppu) (low : BitVec 5) :
    p.statusByte low =
      BitVec.ofNat 8 (128 * p.vblank.toNat + 64 * p.spriteZero.toNat + 32 * p.overflow.toNat + low.toNat) := by
  simp only [Ppu.statusByte, Nat.mul_comm]

/-- Settles O21: the read of offset 2, under both settings of the low bits. -/
theorem ppuStatusRead : Obligations.PpuStatusRead := by
  intro a s hlow hhigh hoffset u top
  have hreg := region_of_offset (r := .status) s.prgSize hlow hhigh hoffset
  refine ⟨fun hzero => ?_, fun hany => ?_⟩
  all_goals rw [memRead_of_readable hreg rfl]
  · simp only [readByte, afterRead, hreg, statusLowBits, hzero, Ppu.statusByte_eq]
    rfl
  · simp only [readByte, afterRead, hreg, statusLowBits, hany, Ppu.statusByte_eq]
    rfl

theorem memRead_of_writeOnly_fault {a : Word} {s : State} {r : PpuReg} (h : region s.prgSize a = .ppu r)
    (hr : r.writeOnly = true) (hpolicy : s.params.woRead = .fault) :
    memRead a s = .error (faultAt (.ppuWriteOnlyRead a) s) := by
  simp [memRead, readFault?, h, hr, hpolicy, raise_eq_faultAt]

theorem memRead_of_writeOnly_any {a : Word} {s : State} {r : PpuReg} (h : region s.prgSize a = .ppu r)
    (hr : r.writeOnly = true) (hpolicy : s.params.woRead = .any) :
    memRead a s = .ok (Config.writeOnlyByte s.draws, s.draw) := by
  cases r with
  | control | mask | oamAddress | scroll | address =>
    simp [memRead, readFault?, readByte, afterRead, h, hpolicy]
  | status | oamData | data => cases hr

/-- Settles O22: the read of offset 4, and of the write-only registers under both policies. -/
theorem oamDataAndWriteOnlyReads : Obligations.OamDataAndWriteOnlyReads := by
  intro a s hlow hhigh
  refine ⟨fun hoffset => ?_, fun hoffset => ?_⟩
  · have hreg := region_of_offset (r := .oamData) s.prgSize hlow hhigh hoffset
    rw [memRead_of_readable hreg rfl]
    simp only [readByte, afterRead, hreg, Ppu.oamByte]
  · have hreg := region_of_register s.prgSize hlow hhigh
    have hwo := (ppuRegAt_writeOnly a.toNat).mpr hoffset
    exact ⟨memRead_of_writeOnly_fault hreg hwo, memRead_of_writeOnly_any hreg hwo⟩

/-! ## The VRAM pointer -/

theorem byte_bit2 (r : Byte) : r.getLsbD 2 = decide (r.toNat / 4 % 2 = 1) := by
  revert r
  decide

/-- The pointer moved by an access of PPU data: by 1 or 32, modulo 0x4000 (R483). -/
theorem Ppu.v_add_increment (p : Ppu) :
    p.v + p.increment =
      BitVec.ofNat 14 ((p.v.toNat + (if p.ctrl.toNat / 4 % 2 = 1 then 32 else 1)) % 0x4000) := by
  apply BitVec.eq_of_toNat_eq
  simp only [Ppu.increment, byte_bit2, decide_eq_true_eq, BitVec.toNat_add, BitVec.toNat_ofNat, Nat.mod_mod]
  split <;> rfl

/-- Settles O23: the buffered and the immediate read of offset 7. -/
theorem ppuDataRead : Obligations.PpuDataRead := by
  intro a s hlow hhigh hoffset v'
  have hreg := region_of_offset (r := .data) s.prgSize hlow hhigh hoffset
  have hv : s.ppu.v + s.ppu.increment = v' := s.ppu.v_add_increment
  refine ⟨fun hle => ?_, fun hge => ?_⟩
  all_goals rw [memRead_of_readable hreg rfl]
  · simp only [readByte, afterRead, hreg, Ppu.dataByte, Ppu.afterDataRead_eq, hle, if_true, hv]
    rfl
  · have hgt : ¬ s.ppu.v.toNat ≤ 0x3EFF := by omega
    simp only [readByte, afterRead, hreg, Ppu.dataByte, Ppu.afterDataRead_eq, hgt, if_false, hv]
    rfl

/-! ## Writes -/

/-- A data write moves the pointer of the PPU as it was. -/
theorem Ppu.writeData_eq_write (p : Ppu) (val : Byte) :
    p.writeData val = { p.write p.v val with v := p.v + p.increment } := by
  rcases Ppu.write_cases p p.v val with h | ⟨h, -⟩ | h
  all_goals
    rw [Ppu.writeData, h]
    rfl

/-- Settles O24: the write of offset 7, with CHR below 0x2000. -/
theorem ppuDataWrite : Obligations.PpuDataWrite := by
  intro a val s hlow hhigh hoffset v'
  have hreg := region_of_offset (r := .data) s.prgSize hlow hhigh hoffset
  have hv : s.ppu.v + s.ppu.increment = v' := s.ppu.v_add_increment
  refine ⟨fun hle hfault => ?_, fun hok => ?_⟩
  · have haddr : s.ppu.v.setWidth 16 = BitVec.ofNat 16 s.ppu.v.toNat := (BitVec.ofNat_toNat 16 s.ppu.v).symm
    simp only [memWrite, writeFault?, hreg, hle, hfault, and_self, if_true, haddr, raise_eq_faultAt]
  · have hnofault : ¬ (s.ppu.v.toNat ≤ 0x1FFF ∧ s.params.chrWrite = .fault) := by
      rintro ⟨hle, hfault⟩
      rcases hok with hge | hignore
      · omega
      · rw [hfault] at hignore
        cases hignore
    simp only [memWrite, writeFault?, hreg, hnofault, if_false, Ppu.writeData_eq_write, hv]
    rfl

theorem lt_128_eq_not_bit7 (v : Byte) : decide (v.toNat < 128) = !v.getLsbD 7 := by
  simp only [byte_bit7, ← decide_not, Nat.not_le]

/-- Settles O26: the writes of offsets 0 to 4. -/
theorem ppuPlainWrites : Obligations.PpuPlainWrites := by
  intro a val s hlow hhigh
  have hreg := fun r => region_of_offset (r := r) s.prgSize hlow hhigh
  refine ⟨fun h0 => ?_, fun h1 => ?_, fun h2 => ⟨fun hfault => ?_, fun hignore => ?_⟩, fun h3 => ?_, fun h4 => ?_⟩
  · rw [lt_128_eq_not_bit7, ← byte_bit7]
    simp only [memWrite, writeFault?, hreg .control h0]
    rfl
  · simp only [memWrite, writeFault?, hreg .mask h1]
    rfl
  · simp only [memWrite, writeFault?, hreg .status h2, hfault, if_true, raise_eq_faultAt]
  · simp [memWrite, writeFault?, hreg .status h2, hignore]
  · simp only [memWrite, writeFault?, hreg .oamAddress h3]
    rfl
  · simp only [memWrite, writeFault?, hreg .oamData h4]
    rfl

/-! ## The two-write registers -/

/-- A word's low byte replaced. -/
theorem withLow_eq_w16 (w : Word) (b : Byte) : (w &&& 0xFF00) ||| b.setWidth 16 = w16 (hi w) b := by
  have hmask : ∀ i < 16, (0xFF00 : Word).getLsbD i = decide (8 ≤ i) := by decide
  apply BitVec.eq_of_getLsbD_eq
  intro i hlt
  simp only [w16, hi, BitVec.getLsbD_or, BitVec.getLsbD_and, hmask i hlt, BitVec.getLsbD_setWidth, BitVec.getLsbD_append,
    BitVec.getLsbD_extractLsb']
  by_cases h : i < 8
  · simp [h, hlt]
  · simp [h, show i - 8 < 8 by omega, show 8 + (i - 8) = i by omega,
      show 8 ≤ i by omega]

/-- A word's high byte replaced. -/
theorem withHigh_eq_w16 (w : Word) (b : Byte) : (b.setWidth 16 <<< 8) ||| (w &&& 0x00FF) = w16 b (lo w) := by
  have hmask : ∀ i < 16, (0x00FF : Word).getLsbD i = decide (i < 8) := by decide
  apply BitVec.eq_of_getLsbD_eq
  intro i hlt
  simp only [w16, lo, BitVec.getLsbD_or, BitVec.getLsbD_and, hmask i hlt, BitVec.getLsbD_shiftLeft,
    BitVec.getLsbD_setWidth, BitVec.getLsbD_append, BitVec.getLsbD_extractLsb']
  by_cases h : i < 8
  · simp [h]
  · simp [h, hlt, show i - 8 < 16 by omega]

/-- The high byte of the pointer written (R479): bits 14 and 15 are dropped. -/
theorem Ppu.writeAddr_high {p : Ppu} (val : Byte) (h : p.addrW = false) :
    p.writeAddr val = { p with
      v := BitVec.ofNat 14 ((256 * val.toNat + p.v.toNat % 256) % 0x4000), addrW := true } := by
  have hv : (w16 val (lo (p.v.setWidth 16))).setWidth 14 =
      BitVec.ofNat 14 ((256 * val.toNat + p.v.toNat % 256) % 0x4000) := by
    apply BitVec.eq_of_toNat_eq
    simp only [BitVec.toNat_setWidth, BitVec.toNat_ofNat, w16_toNat, lo_toNat]
    omega
  simp only [Ppu.writeAddr, h, withHigh_eq_w16, Bool.false_eq_true, if_false, hv]
  rfl

/-- The low byte of the pointer written (R479). -/
theorem Ppu.writeAddr_low {p : Ppu} (val : Byte) (h : p.addrW = true) :
    p.writeAddr val = { p with v := BitVec.ofNat 14 (p.v.toNat / 256 * 256 + val.toNat), addrW := false } := by
  have hv : (w16 (hi (p.v.setWidth 16)) val).setWidth 14 = BitVec.ofNat 14 (p.v.toNat / 256 * 256 + val.toNat) := by
    apply BitVec.eq_of_toNat_eq
    simp only [BitVec.toNat_setWidth, BitVec.toNat_ofNat, w16_toNat, hi_toNat]
    have := p.v.isLt
    omega
  simp only [Ppu.writeAddr, h, withLow_eq_w16, hv, if_true]
  rfl

/-- Settles O27: an address write by its toggle, a scroll write by the toggle it uses. -/
theorem ppuTwoWriteRegisters : Obligations.PpuTwoWriteRegisters := by
  intro a val s hlow hhigh
  have haddress : a.toNat % 8 = 6 → memWrite a val s = .ok (s.setPpu (s.ppu.writeAddr val)) := fun h => by
    simp only [memWrite, writeFault?, region_of_offset (r := .address) s.prgSize hlow hhigh h]
  have hscroll : a.toNat % 8 = 5 → memWrite a val s = .ok (s.setPpu (s.ppu.writeScroll s.params.sharedW val)) := fun h => by
    simp only [memWrite, writeFault?, region_of_offset (r := .scroll) s.prgSize hlow hhigh h]
  refine ⟨fun h hw => ?_, fun h hw => ?_, fun h hshared hw => ?_, fun h hshared hw => ?_, fun h hshared hw => ?_,
    fun h hshared hw => ?_⟩
  · rw [haddress h, Ppu.writeAddr_high val hw]
    rfl
  · rw [haddress h, Ppu.writeAddr_low val hw]
    rfl
  all_goals
    rw [hscroll h, hshared]
    simp [Ppu.writeScroll, Ppu.scrollToggle, Ppu.flipScrollToggle, hw, State.setPpu]

end Sys2Proof.Machine
end

section
/-! Proofs of the exceptions family, OAM DMA: the copy of a page as the states `dmaAfter` gives, and what it puts in OAM
(60_exceptions.md R490). -/

namespace Sys2Proof.Machine

/-! ## The copy -/

theorem w16_ofNat (pg : Byte) {k : Nat} (h : k < 256) : w16 pg (BitVec.ofNat 8 k) = BitVec.ofNat 16 (256 * pg.toNat + k) := by
  rw [w16_eq, ofNat8_toNat h]

theorem dmaAddr_toNat (pg : Byte) {k : Nat} (h : k < 256) :
    (BitVec.ofNat 16 (256 * pg.toNat + k)).toNat = 256 * pg.toNat + k := by
  have := pg.isLt
  rw [BitVec.toNat_ofNat]
  omega

/-- One byte more of a copy: a read through the router, stored at the cursor. -/
theorem dmaAfter_succ (pg : Byte) (k : Nat) (s : State) :
    let a := BitVec.ofNat 16 (256 * pg.toNat + k)
    let u := afterRead a (dmaAfter pg k s)
    dmaAfter pg (k + 1) s = u.setPpu (u.ppu.writeOamData (readByte a (dmaAfter pg k s))) := rfl

/-- What reading any byte and storing any byte at the OAM cursor keeps, the first bytes of a copy keep. -/
theorem dmaAfter_keeps {α : Type} (f : State → α)
    (hf : ∀ a b u, f ((afterRead a u).setPpu ((afterRead a u).ppu.writeOamData b)) = f u) (pg : Byte) (k : Nat) (s : State) :
    f (dmaAfter pg k s) = f s := by
  induction k with
  | zero => rfl
  | succ k ih => exact (hf _ _ _).trans ih

theorem dmaCopy_dmaAfter {pg : Byte} {s : State} (h : DmaOk pg s) {n : Nat} (hn : n ≤ 256) :
    dmaCopy pg n (dmaAfter pg (256 - n) s) = .ok (dmaAfter pg 256 s) := by
  induction n with
  | zero => rfl
  | succ n ih =>
    have hk : 256 - n = (256 - (n + 1)) + 1 := by omega
    have haddr : w16 pg (BitVec.ofNat 8 (255 - n)) = BitVec.ofNat 16 (256 * pg.toNat + (256 - (n + 1))) := by
      rw [w16_ofNat pg (by omega), show 255 - n = 256 - (n + 1) by omega]
    have hok : DmaOk pg (dmaAfter pg (256 - (n + 1)) s) := by
      simpa only [DmaOk, dmaAfter_keeps (·.params) (by simp)] using h
    have hbyte := dmaByte_ok (readOk_of_dmaOk hok (BitVec.ofNat 8 (255 - n)))
    rw [haddr, ← dmaAfter_succ, ← hk] at hbyte
    rw [dmaCopy, haddr]
    simp only [hbyte]
    exact ih (by omega)

theorem dmaCopy_eq_dmaAfter {pg : Byte} {s : State} (h : DmaOk pg s) : dmaCopy pg 256 s = .ok (dmaAfter pg 256 s) :=
  dmaCopy_dmaAfter h (Nat.le_refl 256)

/-- An OAM DMA from a page whose reads complete. -/
theorem memWrite_oamDma_eq {pg : Byte} {s : State} (h : DmaOk pg s) :
    memWrite 0x4014 pg s = .ok { dmaAfter pg 256 s with ctx := { s.ctx with cyc := s.ctx.cyc + s.params.dmaCycles } } := by
  have hctx : (dmaAfter pg 256 s).ctx = s.ctx := dmaAfter_keeps (·.ctx) (by simp) pg 256 s
  have hparams : (dmaAfter pg 256 s).params = s.params := dmaAfter_keeps (·.params) (by simp) pg 256 s
  rw [memWrite_of_oamDma pg s rfl, oamDma, dmaCopy_eq_dmaAfter h]
  dsimp only
  generalize dmaAfter pg 256 s = u at hctx hparams
  rw [← hctx, ← hparams]
  rfl

/-- The copy of a page keeps the frame of a store to 0x4014. -/
theorem storeFrame_dmaAfter {pg : Byte} {s : State} (h : DmaOk pg s) : StoreFrame 0x4014 s (dmaAfter pg 256 s) := by
  have hcopy := dmaCopy_eq_dmaAfter h
  have hram := ram_dmaCopy hcopy
  have hprg := dmaCopy_keeps (·.prg) (by simp) hcopy
  have hsize := dmaCopy_keeps (·.prgSize) (by simp) hcopy
  exact ⟨sameCore_dmaCopy hcopy, fun b hb _ => readByte_of_placeable hb hprg hsize fun _ => by rw [hram]⟩

/-! ## What lands in OAM -/

theorem oamAddr_dmaAfter (pg : Byte) (k : Nat) (s : State) :
    (dmaAfter pg k s).ppu.oamAddr = s.ppu.oamAddr + BitVec.ofNat 8 k := by
  induction k with
  | zero => exact (BitVec.add_zero _).symm
  | succ k ih =>
    rw [dmaAfter_succ]
    simp only [State.setPpu_ppu, Ppu.writeOamData, afterRead_ppu_oamAddr, ih, BitVec.add_assoc, BitVec.ofNat_add]
    rfl

/-- The cursor ends where it was: it moved 256 times. -/
theorem oamAddr_dmaAfter_page (pg : Byte) (s : State) : (dmaAfter pg 256 s).ppu.oamAddr = s.ppu.oamAddr :=
  (oamAddr_dmaAfter pg 256 s).trans (BitVec.add_zero _)

/-- Byte `j` of the page, as its read gives it, lands at the cursor plus `j`, and no later byte lands there. -/
theorem oam_dmaAfter (pg : Byte) (s : State) {j k : Nat} (hj : j < k) (hk : k ≤ 256) :
    (dmaAfter pg k s).ppu.oam.read ((s.ppu.oamAddr.toNat + j) % 256) =
      readByte (BitVec.ofNat 16 (256 * pg.toNat + j)) (dmaAfter pg j s) := by
  induction k with
  | zero => omega
  | succ k ih =>
    have hcursor : (dmaAfter pg k s).ppu.oamAddr.toNat = (s.ppu.oamAddr.toNat + k) % 256 := by
      rw [oamAddr_dmaAfter, BitVec.toNat_add, ofNat8_toNat (by omega)]
    rw [dmaAfter_succ]
    simp only [State.setPpu_ppu, Ppu.writeOamData, afterRead_ppu_oamAddr, afterRead_ppu_oam, hcursor, Memory.read_write]
    by_cases hjk : j = k
    · rw [hjk, if_pos rfl]
    · rw [if_neg (by omega), ih (by omega) (by omega)]

/-! ## Pages other than the PPU registers' -/

theorem readByte_of_memRead {a : Word} {b : Byte} {s t : State} (h : memRead a s = .ok (b, t)) : readByte a s = b :=
  (memRead_eq_ok h).2.1.symm

/-- A read that reaches no register and no device looks at RAM and PRG ROM only. -/
theorem readByte_congr_of_plain {a : Word} {s t : State} (h : a.toNat < 0x2000 ∨ (0x4000 ≤ a.toNat ∧ a.toNat ≠ 0x4016))
    (hram : t.ram = s.ram) (hprg : t.prg = s.prg) (hsize : t.prgSize = s.prgSize) : readByte a t = readByte a s := by
  rcases address_cases a with hlt | hppu | ⟨hlow, hhigh, hdma, hinput⟩ | hdma | hinput | hge
  · rw [readByte_of_ram t hlt, readByte_of_ram s hlt, hram]
  · omega
  · rw [readByte_of_memRead (memRead_of_silent t hlow hhigh hdma hinput),
      readByte_of_memRead (memRead_of_silent s hlow hhigh hdma hinput)]
  · rw [readByte_of_memRead (memRead_of_oamDma t hdma), readByte_of_memRead (memRead_of_oamDma s hdma)]
  · omega
  · rw [readByte_of_memRead (memRead_of_prg t hge), readByte_of_memRead (memRead_of_prg s hge), hprg, hsize]

/-- Outside the PPU registers only the input device's read has an effect, a draw. -/
theorem afterRead_off_registers {a : Word} (s : State) (h : a.toNat < 0x2000 ∨ 0x4000 ≤ a.toNat) :
    afterRead a s = if a.toNat = 0x4016 then s.draw else s := by
  by_cases hinput : a.toNat = 0x4016
  · rw [if_pos hinput]
    exact (memRead_eq_ok (memRead_of_input s hinput)).2.2.symm
  · rw [if_neg hinput]
    have hok : ReadOk a s := fun hppu => by omega
    exact eq_of_memRead_of_plain (memRead_ok hok) (by omega)

/-- The copy of a page outside the PPU registers changes OAM and its cursor, and draws once if the input device is in the page. -/
theorem dmaAfter_off_registers {pg : Byte} (s : State) {k : Nat} (hpg : pg.toNat < 0x20 ∨ 0x40 ≤ pg.toNat) (hk : k ≤ 256) :
    ∃ m c, dmaAfter pg k s = { s with
      ppu := { s.ppu with oam := m, oamAddr := c }
      draws := s.draws + (if pg.toNat = 0x40 ∧ 0x16 < k then 1 else 0) } := by
  induction k with
  | zero => exact ⟨s.ppu.oam, s.ppu.oamAddr, by simp [dmaAfter]⟩
  | succ k ih =>
    obtain ⟨m, c, hu⟩ := ih (by omega)
    have haddr := dmaAddr_toNat pg (k := k) (by omega)
    have hread := afterRead_off_registers (a := BitVec.ofNat 16 (256 * pg.toNat + k)) (dmaAfter pg k s) (by omega)
    rw [dmaAfter_succ, hread, haddr]
    generalize readByte _ (dmaAfter pg k s) = b
    rw [hu]
    by_cases hinput : 256 * pg.toNat + k = 0x4016
    · rw [if_pos hinput, if_neg (by omega), if_pos (by omega)]
      exact ⟨_, _, rfl⟩
    · rw [if_neg hinput]
      have hsame : (pg.toNat = 0x40 ∧ 0x16 < k + 1) ↔ (pg.toNat = 0x40 ∧ 0x16 < k) := by omega
      simp only [hsame]
      exact ⟨_, _, rfl⟩

/-- The copy of a whole page outside the PPU registers, and the bytes it leaves in OAM. -/
theorem memWrite_oamDma_off_registers {pg : Byte} (s : State) (hpg : pg.toNat < 0x20 ∨ 0x40 ≤ pg.toNat) :
    ∃ m : Memory, memWrite 0x4014 pg s = .ok { s with
        ppu := { s.ppu with oam := m }
        draws := s.draws + (if pg.toNat = 0x40 then 1 else 0)
        ctx := { s.ctx with cyc := s.ctx.cyc + s.params.dmaCycles } } ∧
      ∀ k, k < 256 → m.read ((s.ppu.oamAddr.toNat + k) % 256) =
        if pg.toNat = 0x40 ∧ k = 0x16 then Config.inputByte s.input s.draws
        else readByte (BitVec.ofNat 16 (256 * pg.toNat + k)) s := by
  have hok : DmaOk pg s := by unfold DmaOk; omega
  obtain ⟨m, c, hu⟩ := dmaAfter_off_registers s hpg (Nat.le_refl 256)
  have hc := oamAddr_dmaAfter_page pg s
  have hm := fun k (hk : k < 256) => oam_dmaAfter pg s hk (Nat.le_refl 256)
  have hwrite := memWrite_oamDma_eq hok
  rw [hu] at hc hwrite hm
  have hdraws : (pg.toNat = 0x40 ∧ 0x16 < 256) ↔ pg.toNat = 0x40 := by omega
  simp only [hdraws] at hwrite
  dsimp only at hc
  rw [hc] at hwrite
  refine ⟨m, hwrite, fun k hk => (hm k hk).trans ?_⟩
  have haddr := dmaAddr_toNat pg hk
  obtain ⟨m', c', hu'⟩ := dmaAfter_off_registers s hpg (k := k) (by omega)
  rw [hu']
  by_cases hinput : pg.toNat = 0x40 ∧ k = 0x16
  · rw [if_pos hinput, if_neg (by omega), readByte_of_memRead (memRead_of_input _ (by omega))]
    rfl
  · rw [if_neg hinput]
    exact readByte_congr_of_plain (by omega) rfl rfl rfl

/-- Every byte of page 0x40 but the input device's reads 0x00 (20_memory.md R82). -/
theorem readByte_page_40 (s : State) {k : Nat} (hk : k < 256) (hinput : k ≠ 0x16) :
    readByte (BitVec.ofNat 16 (256 * 0x40 + k)) s = 0x00 := by
  have haddr : (BitVec.ofNat 16 (256 * 0x40 + k)).toNat = 256 * 0x40 + k := dmaAddr_toNat 0x40 hk
  by_cases hdma : k = 0x14
  · exact readByte_of_memRead (memRead_of_oamDma s (by omega))
  · exact readByte_of_memRead (memRead_of_silent s (by omega) (by omega) (by omega) (by omega))

/-- Settles O28: the copy as `dmaAfter`, its bytes by page, and the fault at the first byte of a page of registers. -/
theorem oamDmaCopiesAPage : Obligations.OamDma := by
  intro pg s
  refine ⟨fun hok => ?_, fun hpg => ?_, fun hpg => ?_, fun hlow hhigh hfault => ?_⟩
  · exact ⟨memWrite_oamDma_eq hok, oamAddr_dmaAfter_page pg s, storeFrame_dmaAfter hok,
      dmaAfter_keeps (·.ppu.vram) (by simp [Ppu.writeOamData]) pg 256 s,
      dmaAfter_keeps (·.ppu.palette) (by simp [Ppu.writeOamData]) pg 256 s⟩
  · obtain ⟨m, hwrite, hread⟩ := memWrite_oamDma_off_registers s (pg := pg) (by omega)
    have hne : pg.toNat ≠ 0x40 := by omega
    simp only [hne, if_false, false_and] at hwrite hread
    exact ⟨m, hwrite, hread⟩
  · obtain ⟨m, hwrite, hread⟩ := memWrite_oamDma_off_registers s (pg := pg) (by omega)
    simp only [hpg, if_true, true_and] at hwrite hread
    refine ⟨m, hwrite, fun k hk => (hread k hk).trans ?_⟩
    by_cases hinput : k = 0x16
    · rw [if_pos hinput, if_pos hinput]
    · rw [if_neg hinput, if_neg hinput, readByte_page_40 s hk hinput]
  · have hnot : ¬ DmaOk pg s := by
      rintro (hpg | hpg | hany)
      · omega
      · omega
      · rw [hfault] at hany
        cases hany
    rw [memWrite_of_oamDma pg s rfl, oamDma, dmaCopy_fault hnot, w16_eq]
    rfl

end Sys2Proof.Machine
end

section
/-! Proofs of the exceptions family, time: one dot, by where in the frame it falls, runs of dots, and the bus tick
(60_exceptions.md R465 to R475). -/

namespace Sys2Proof.Machine

/-! ## The dot counter, case by case -/

theorem Ppu.advanceDot_within_line {p : Ppu} (h : p.dot ≠ 340) : p.advanceDot = { p with dot := p.dot + 1 } :=
  if_neg fun hlast => h (Nat.succ.inj hlast)

/-- Entry to scanline 241 (R470). -/
theorem Ppu.advanceDot_enters_241 {p : Ppu} (hdot : p.dot = 340) (hline : p.scanline = 240) :
    p.advanceDot = { p with
      scanline := 241, dot := 0, vblank := true, spriteZero := false
      nmiPending := p.nmiPending || decide (128 ≤ p.ctrl.toNat) } := by
  simp [Ppu.advanceDot, Ppu.lineEvents, hdot, hline, ← byte_bit7]

/-- The wrap at 262 (R471). -/
theorem Ppu.advanceDot_wraps {p : Ppu} (hdot : p.dot = 340) (hline : p.scanline = 261) :
    p.advanceDot = { p with
      scanline := 0, dot := 0, nmiPending := false, spriteZero := false, vblank := false, overflow := false } := by
  simp [Ppu.advanceDot, Ppu.lineEvents, hdot, hline]

theorem Ppu.advanceDot_next_line {p : Ppu} (hdot : p.dot = 340) (h240 : p.scanline ≠ 240) (h261 : p.scanline ≠ 261) :
    p.advanceDot = { p with dot := 0, scanline := p.scanline + 1 } := by
  simp [Ppu.advanceDot, Ppu.lineEvents, hdot, h240, h261]

/-- No other dot has an event. -/
theorem Ppu.advanceDot_without_event {p : Ppu} (h : ¬ (p.dot = 340 ∧ (p.scanline = 240 ∨ p.scanline = 261))) :
    ∃ l d, p.advanceDot = { p with scanline := l, dot := d } := by
  by_cases hdot : p.dot = 340
  · exact ⟨_, _, Ppu.advanceDot_next_line hdot (fun hl => h ⟨hdot, .inl hl⟩) fun hl => h ⟨hdot, .inr hl⟩⟩
  · exact ⟨_, _, Ppu.advanceDot_within_line hdot⟩

/-! ## One dot -/

/-- A dot changes time, events and sprite bits only. -/
theorem Ppu.dotStep_keeps (par : Params) (p : Ppu) : ∃ vb z o l d n i, p.dotStep par = { p with
    vblank := vb, spriteZero := z, overflow := o, scanline := l, dot := d, nmiPending := n, oracleIndex := i } := by
  obtain ⟨z, o, i, hstep⟩ := Ppu.dotStep_eq par p
  rw [hstep]
  unfold Ppu.advanceDot Ppu.lineEvents
  split
  · split
    · exact ⟨_, _, _, _, _, _, _, rfl⟩
    · split <;> exact ⟨_, _, _, _, _, _, _, rfl⟩
  · exact ⟨_, _, _, _, _, _, _, rfl⟩

@[simp] theorem Ppu.dotStep_scanline (par : Params) (p : Ppu) : (p.dotStep par).scanline = p.advanceDot.scanline := by
  obtain ⟨z, o, i, hstep⟩ := Ppu.dotStep_eq par p
  rw [hstep]

@[simp] theorem Ppu.dotStep_dot (par : Params) (p : Ppu) : (p.dotStep par).dot = p.advanceDot.dot := by
  obtain ⟨z, o, i, hstep⟩ := Ppu.dotStep_eq par p
  rw [hstep]

@[simp] theorem Ppu.dotStep_vblank (par : Params) (p : Ppu) : (p.dotStep par).vblank = p.advanceDot.vblank := by
  obtain ⟨z, o, i, hstep⟩ := Ppu.dotStep_eq par p
  rw [hstep]

@[simp] theorem Ppu.dotStep_nmiPending (par : Params) (p : Ppu) :
    (p.dotStep par).nmiPending = p.advanceDot.nmiPending := by
  obtain ⟨z, o, i, hstep⟩ := Ppu.dotStep_eq par p
  rw [hstep]

@[simp] theorem Ppu.dotStep_ctrl (par : Params) (p : Ppu) : (p.dotStep par).ctrl = p.ctrl := by
  obtain ⟨_, _, _, _, _, _, _, hstep⟩ := Ppu.dotStep_keeps par p
  rw [hstep]

/-- The renderer's answer is or-ed to sprite-zero hit after a visible dot under `oracle` (R473). -/
theorem Ppu.dotStep_spriteZero (par : Params) (p : Ppu) :
    (p.dotStep par).spriteZero = (p.advanceDot.spriteZero || (decide (p.advanceDot.scanline ≤ 239) &&
      decide (par.sprite0Source = .oracle) && Config.spriteZeroHit p.advanceDot.oracleIndex)) := by
  unfold Ppu.dotStep
  dsimp only
  split <;> simp [Ppu.rendererOracle, *]

/-- The renderer's answer is or-ed to sprite overflow after a visible dot under `oracle` (R474). -/
theorem Ppu.dotStep_overflow (par : Params) (p : Ppu) :
    (p.dotStep par).overflow = (p.advanceDot.overflow || (decide (p.advanceDot.scanline ≤ 239) &&
      decide (par.overflowSource = .oracle) && Config.spriteOverflow p.advanceDot.oracleIndex)) := by
  unfold Ppu.dotStep
  dsimp only
  split <;> simp [Ppu.rendererOracle, *]

theorem Ppu.dotStep_spriteZero_of_silent {par : Params} {p : Ppu}
    (h : 240 ≤ (p.dotStep par).scanline ∨ par.sprite0Source = .never) :
    (p.dotStep par).spriteZero = p.advanceDot.spriteZero := by
  rw [Ppu.dotStep_spriteZero]
  rcases h with h | h
  · rw [Ppu.dotStep_scanline] at h
    simp [show ¬ p.advanceDot.scanline ≤ 239 by omega]
  · simp [h]

theorem Ppu.dotStep_overflow_of_silent {par : Params} {p : Ppu}
    (h : 240 ≤ (p.dotStep par).scanline ∨ par.overflowSource = .never) :
    (p.dotStep par).overflow = p.advanceDot.overflow := by
  rw [Ppu.dotStep_overflow]
  rcases h with h | h
  · rw [Ppu.dotStep_scanline] at h
    simp [show ¬ p.advanceDot.scanline ≤ 239 by omega]
  · simp [h]

/-- Settles O30: the two events, every other dot, and what no dot changes. -/
theorem dotEvents : Obligations.DotEvents := by
  intro par p hline hdot q
  refine ⟨fun h340 h240 => ?_, fun h340 h261 => ?_, fun hnone => ?_, ?_⟩
  · have hadv := Ppu.advanceDot_enters_241 h340 h240
    have hq : q.scanline = 241 := by rw [Ppu.dotStep_scanline, hadv]
    have hsilent : 240 ≤ q.scanline := by omega
    refine ⟨hq, ?_, ?_, ?_, ?_, ?_⟩
    · rw [Ppu.dotStep_dot, hadv]
    · rw [Ppu.dotStep_vblank, hadv]
    · rw [Ppu.dotStep_spriteZero_of_silent (.inl hsilent), hadv]
    · rw [Ppu.dotStep_overflow_of_silent (.inl hsilent), hadv]
    · rw [Ppu.dotStep_nmiPending, hadv]
  · have hadv := Ppu.advanceDot_wraps h340 h261
    refine ⟨?_, ?_, ?_, ?_, fun hnever => ?_, fun hnever => ?_⟩
    · rw [Ppu.dotStep_scanline, hadv]
    · rw [Ppu.dotStep_dot, hadv]
    · rw [Ppu.dotStep_vblank, hadv]
    · rw [Ppu.dotStep_nmiPending, hadv]
    · rw [Ppu.dotStep_spriteZero_of_silent (.inr hnever), hadv]
    · rw [Ppu.dotStep_overflow_of_silent (.inr hnever), hadv]
  · obtain ⟨l, d, hadv⟩ := Ppu.advanceDot_without_event hnone
    refine ⟨?_, ?_, fun hset => ?_, fun hset => ?_, fun hsilent => ?_, fun hsilent => ?_⟩
    · rw [Ppu.dotStep_vblank, hadv]
    · rw [Ppu.dotStep_nmiPending, hadv]
    · rw [Ppu.dotStep_spriteZero, hadv, hset, Bool.true_or]
    · rw [Ppu.dotStep_overflow, hadv, hset, Bool.true_or]
    · rw [Ppu.dotStep_spriteZero_of_silent hsilent, hadv]
    · rw [Ppu.dotStep_overflow_of_silent hsilent, hadv]
  · obtain ⟨_, _, _, _, _, _, _, hstep⟩ := Ppu.dotStep_keeps par p
    have hq : q = _ := hstep
    rw [hq]
    exact ⟨rfl, rfl, rfl, rfl, rfl, rfl, rfl, rfl, rfl, rfl, rfl, rfl, rfl, rfl⟩

/-! ## The position in the frame -/

/-- The number of the dot in its frame. -/
def Ppu.position (p : Ppu) : Nat := p.scanline * 341 + p.dot

/-- The counters in range (10_state.md R71, R72). -/
def Ppu.InFrame (p : Ppu) : Prop := p.scanline ≤ 261 ∧ p.dot ≤ 340

theorem Ppu.inFrame_dotStep (par : Params) {p : Ppu} (h : p.InFrame) :
    (p.dotStep par).InFrame ∧ (p.dotStep par).position = (p.position + 1) % 89342 := by
  obtain ⟨hline, hdot⟩ := h
  simp only [Ppu.InFrame, Ppu.position, Ppu.dotStep_scanline, Ppu.dotStep_dot]
  by_cases h340 : p.dot = 340
  · by_cases h240 : p.scanline = 240
    · rw [Ppu.advanceDot_enters_241 h340 h240]
      dsimp only
      omega
    by_cases h261 : p.scanline = 261
    · rw [Ppu.advanceDot_wraps h340 h261]
      dsimp only
      omega
    · rw [Ppu.advanceDot_next_line h340 h240 h261]
      dsimp only
      omega
  · rw [Ppu.advanceDot_within_line h340]
    dsimp only
    omega

theorem Ppu.inFrame_dots (par : Params) (n : Nat) {p : Ppu} (h : p.InFrame) :
    (p.dots par n).InFrame ∧ (p.dots par n).position = (p.position + n) % 89342 := by
  induction n generalizing p with
  | zero =>
    have hlt : p.position < 89342 := by
      obtain ⟨hline, hdot⟩ := h
      unfold Ppu.position
      omega
    exact ⟨h, by rw [Ppu.dots, Nat.add_zero, Nat.mod_eq_of_lt hlt]⟩
  | succ n ih =>
    obtain ⟨hstep, hpos⟩ := Ppu.inFrame_dotStep par h
    obtain ⟨hrest, hposn⟩ := ih hstep
    exact ⟨hrest, by rw [Ppu.dots, hposn, hpos]; omega⟩

/-- Settles O29, by induction on the dots. -/
theorem dotCounters : Obligations.DotCounters := by
  intro par n p hline hdot q
  obtain ⟨hframe, hpos⟩ := Ppu.inFrame_dots par n ⟨hline, hdot⟩
  exact ⟨hpos, hframe⟩

/-! ## The dots before vblank -/

theorem Ppu.dots_succ (par : Params) (n : Nat) (p : Ppu) : p.dots par (n + 1) = (p.dots par n).dotStep par := by
  induction n generalizing p with
  | zero => rfl
  | succ n ih => exact ih (p.dotStep par)

@[simp] theorem Ppu.dots_ctrl (par : Params) (n : Nat) (p : Ppu) : (p.dots par n).ctrl = p.ctrl := by
  induction n generalizing p with
  | zero => rfl
  | succ n ih => rw [Ppu.dots, ih, Ppu.dotStep_ctrl]

/-- No dot on the way to the last one of scanline 240 has an event. -/
theorem Ppu.dots_before_vblank (par : Params) (n : Nat) {p : Ppu} (hframe : p.InFrame) (hpos : p.position + n ≤ 82180) :
    (p.dots par n).vblank = p.vblank ∧ (p.dots par n).nmiPending = p.nmiPending := by
  induction n generalizing p with
  | zero => exact ⟨rfl, rfl⟩
  | succ n ih =>
    obtain ⟨hstep, hnext⟩ := Ppu.inFrame_dotStep par hframe
    obtain ⟨hv, hn⟩ := ih hstep (by omega)
    have hnone : ¬ (p.dot = 340 ∧ (p.scanline = 240 ∨ p.scanline = 261)) := by
      unfold Ppu.position at hpos
      omega
    obtain ⟨l, d, hadv⟩ := Ppu.advanceDot_without_event hnone
    rw [Ppu.dots, hv, hn, Ppu.dotStep_vblank, Ppu.dotStep_nmiPending, hadv]
    exact ⟨rfl, rfl⟩

/-- Settles O31: the position after 82,180 dots is the last of scanline 240, and the next dot enters scanline 241. -/
theorem vblankAfter82181Dots : Obligations.VblankAfter82181Dots := by
  intro par p hline hdot
  have hframe : p.InFrame := by
    unfold Ppu.InFrame
    omega
  have hpos : p.position = 0 := by simp [Ppu.position, hline, hdot]
  have hbefore : ∀ n, n ≤ 82180 → (p.dots par n).vblank = p.vblank ∧ (p.dots par n).nmiPending = p.nmiPending :=
    fun n hn => Ppu.dots_before_vblank par n hframe (by omega)
  obtain ⟨⟨hlinen, hdotn⟩, hposn⟩ := Ppu.inFrame_dots par 82180 hframe
  rw [hpos, Ppu.position] at hposn
  have hadv := Ppu.advanceDot_enters_241 (p := p.dots par 82180) (by omega) (by omega)
  obtain ⟨-, hnmi⟩ := hbefore 82180 (Nat.le_refl _)
  refine ⟨hbefore, ?_, ?_⟩
  · rw [Ppu.dots_succ par 82180, Ppu.dotStep_vblank, hadv]
  · rw [Ppu.dots_succ par 82180, Ppu.dotStep_nmiPending, hadv]
    dsimp only
    rw [hnmi, Ppu.dots_ctrl]

/-! ## The bus tick -/

/-- Settles O32: the rise of the latch as a proposition. -/
theorem busTickEffect : Obligations.BusTickEffect := by
  intro n s q rise
  have hrise : ((!s.ppu.nmiPending && q.nmiPending) = true) = rise := by simp [rise]
  have htick : busTick n s = { s with
      busCycles := s.busCycles + n
      ppu := q
      frameEvents := if !s.ppu.nmiPending && q.nmiPending then s.frameEvents + 1 else s.frameEvents
      input := if !s.ppu.nmiPending && q.nmiPending then Config.onFrame s.handler s.frameEvents q s.input else s.input } :=
    rfl
  rw [htick]
  simp only [hrise]
  by_cases h : rise <;> simp [h]

end Sys2Proof.Machine
end

section
/-! Proofs of the exceptions family, the host: its accesses are the CPU's, and a load is a run of its writes (60_exceptions.md R504 to
R506). -/

namespace Sys2Proof.Machine

/-! ## Host accesses -/

theorem hostWrite_of_memWrite_ok {a : Word} {v : Byte} {s t : State} (h : memWrite a v s = .ok t) :
    hostWrite a v s = .ok (t.setCtx s.ctx) := by
  simp only [hostWrite, h]

theorem hostWrite_of_memWrite_error {a : Word} {v : Byte} {s : State} {c : FaultCause}
    (h : memWrite a v s = .error (faultAt c s)) : hostWrite a v s = .error ⟨c, s.ctx.opAddr, s.ctx.opcode⟩ := by
  simp only [hostWrite, h, faultAt]

/-- Settles O36: each access by whether the CPU's completes. -/
theorem hostAccess : Obligations.HostAccess := by
  intro a v s
  refine ⟨fun hok => ?_, fun hfault => ?_, fun hok => ?_, fun hfault => ?_, Flags.toByte_ofByte v⟩
  · have hctx : (afterRead a s).setCtx s.ctx = afterRead a s := by
      rw [← afterRead_ctx a s]
      rfl
    simp only [hostRead, memRead_ok hok, hctx]
  · simp only [hostRead, memRead_fault hfault, faultAt]
  · obtain ⟨t, ht⟩ := memWrite_next hok
    have hsame := ofInstr_of_sameCore (sameCore_memWrite ht)
    simp only [State.ofInstr, State.lasting, Prod.mk.injEq] at hsame
    obtain ⟨⟨hbus, hline, hdot, -⟩, -⟩ := hsame
    exact ⟨t, ht, hostWrite_of_memWrite_ok ht, hbus, hline, hdot⟩
  · obtain ⟨f, hf⟩ := memWrite_error hfault
    obtain ⟨c, rfl, -⟩ := memWrite_eq_error hf
    exact ⟨c, hf, hostWrite_of_memWrite_error hf⟩

/-! ## Loads -/

theorem hostWrite_ctx {a : Word} {v : Byte} {s t : State} (h : hostWrite a v s = .ok t) : t.ctx = s.ctx := by
  unfold hostWrite at h
  split at h
  · cases h
  · cases h
    rfl

theorem hostLoad_cons_of_ok {a : Word} {b : Byte} {s t : State} (h : hostWrite a b s = .ok t) (rest : List Byte) :
    hostLoad (b :: rest) a s = hostLoad rest (a + 1) t := by
  simp only [hostLoad, h]

theorem hostLoad_cons_of_error {a : Word} {b : Byte} {s : State} {info : FaultInfo} (h : hostWrite a b s = .error info)
    (rest : List Byte) : hostLoad (b :: rest) a s = (some info, s) := by
  simp only [hostLoad, h]

/-- A load whose first bytes are not refused goes on behind them, with the step context as it was. -/
theorem hostLoad_append {bytes : List Byte} {a : Word} {s t : State} (h : hostLoad bytes a s = (none, t)) (more : List Byte) :
    hostLoad (bytes ++ more) a s = hostLoad more (a + BitVec.ofNat 16 bytes.length) t ∧ t.ctx = s.ctx := by
  induction bytes generalizing a s with
  | nil =>
    cases h
    rw [List.length_nil, BitVec.add_zero, List.nil_append]
    exact ⟨rfl, rfl⟩
  | cons b bytes ih =>
    cases hw : hostWrite a b s with
    | error info =>
      rw [hostLoad_cons_of_error hw] at h
      cases h
    | ok u =>
      rw [hostLoad_cons_of_ok hw] at h
      obtain ⟨hrest, hctx⟩ := ih h
      have haddr : a + BitVec.ofNat 16 (b :: bytes).length = a + 1 + BitVec.ofNat 16 bytes.length := by
        rw [List.length_cons, Nat.add_comm, BitVec.ofNat_add, BitVec.add_assoc]
        rfl
      rw [List.cons_append, hostLoad_cons_of_ok hw, hrest, haddr]
      exact ⟨rfl, hctx.trans (hostWrite_ctx hw)⟩

/-- RAM with bytes written from address `n` on, each at its place in the 2,048 bytes (20_memory.md R83). -/
def Memory.loadRam : List Byte → Nat → Memory → Memory
  | [], _, m => m
  | b :: rest, n, m => Memory.loadRam rest (n + 1) (m.write (n % 0x800) b)

/-- A place that no byte is written to keeps its own. -/
theorem Memory.read_loadRam_other (bytes : List Byte) (n : Nat) (m : Memory) {j : Nat}
    (h : ∀ k, k < bytes.length → j ≠ (n + k) % 0x800) : (Memory.loadRam bytes n m).read j = m.read j := by
  induction bytes generalizing n m with
  | nil => rfl
  | cons b rest ih =>
    have hrest : ∀ k, k < rest.length → j ≠ (n + 1 + k) % 0x800 := fun k hk => by
      rw [Nat.add_assoc, Nat.add_comm 1]
      exact h (k + 1) (Nat.succ_lt_succ hk)
    have hfirst : j ≠ n % 0x800 := h 0 (Nat.succ_pos _)
    rw [Memory.loadRam, ih _ _ hrest, Memory.read_write_other _ _ hfirst]

/-- A place keeps the last byte written to it. -/
theorem Memory.read_loadRam_last (bytes : List Byte) (n : Nat) (m : Memory) {k : Nat} (hk : k < bytes.length)
    (hlast : ∀ l, k < l → l < bytes.length → (n + l) % 0x800 ≠ (n + k) % 0x800) :
    (Memory.loadRam bytes n m).read ((n + k) % 0x800) = bytes.getD k 0 := by
  induction bytes generalizing n m k with
  | nil => cases hk
  | cons b rest ih =>
    cases k with
    | zero =>
      have hother : ∀ l, l < rest.length → n % 0x800 ≠ (n + 1 + l) % 0x800 := fun l hl => by
        rw [Nat.add_assoc, Nat.add_comm 1]
        exact (hlast (l + 1) (Nat.succ_pos l) (Nat.succ_lt_succ hl)).symm
      rw [Nat.add_zero, Memory.loadRam, Memory.read_loadRam_other _ _ _ hother, Memory.read_write_same]
      rfl
    | succ k =>
      have hn : ∀ l, n + (l + 1) = n + 1 + l := fun l => by omega
      rw [hn, Memory.loadRam, List.getD_cons_succ]
      refine ih (n + 1) _ (Nat.lt_of_succ_lt_succ hk) fun l hkl hl => ?_
      rw [← hn, ← hn]
      exact hlast (l + 1) (Nat.succ_lt_succ hkl) (Nat.succ_lt_succ hl)

theorem toNat_add_one {a : Word} (h : a.toNat < 0xFFFF) : (a + 1).toNat = a.toNat + 1 := by
  bv_omega

/-- A load inside the RAM addresses. -/
theorem hostLoad_of_ram (bytes : List Byte) (a : Word) (s : State) (h : a.toNat + bytes.length ≤ 0x2000) :
    hostLoad bytes a s = (none, s.setRam (Memory.loadRam bytes a.toNat s.ram)) := by
  induction bytes generalizing a s with
  | nil => rfl
  | cons b rest ih =>
    rw [List.length_cons] at h
    have hnext := toNat_add_one (a := a) (by omega)
    rw [hostLoad_cons_of_ok (hostWrite_of_memWrite_ok (memWrite_of_ram b s (by omega))), ih _ _ (by omega), hnext]
    rfl

/-- A load inside the unmapped addresses. -/
theorem hostLoad_of_unmapped (bytes : List Byte) (a : Word) (s : State) (hlow : 0x4018 ≤ a.toNat)
    (h : a.toNat + bytes.length ≤ 0x8000) : hostLoad bytes a s = (none, s) := by
  induction bytes generalizing a with
  | nil => rfl
  | cons b rest ih =>
    rw [List.length_cons] at h
    have hnext := toNat_add_one (a := a) (by omega)
    have hsilent := memWrite_of_silent b s (a := a) (by omega) (by omega) (by omega) (by omega)
    rw [hostLoad_cons_of_ok (hostWrite_of_memWrite_ok hsilent)]
    exact ih (a + 1) (by omega) (by omega)

/-- Settles O37: a load goes on behind the bytes not refused, and the next byte is a host write. -/
theorem hostLoadWritesInOrder : Obligations.HostLoad := by
  intro bytes a s
  refine ⟨?_, fun hram => ?_, hostLoad_of_unmapped bytes a s⟩
  · intro b rest t hload c
    obtain ⟨happend, hctx⟩ := hostLoad_append hload (b :: rest)
    refine ⟨hctx, fun info hw => ?_, fun u hw => ?_, fun hprg => ?_⟩
    · exact happend.trans (hostLoad_cons_of_error hw rest)
    · exact happend.trans (hostLoad_cons_of_ok hw rest)
    · rw [← hctx]
      exact happend.trans (hostLoad_cons_of_error (hostWrite_of_memWrite_error (memWrite_of_prg b t hprg)) rest)
  · exact ⟨_, hostLoad_of_ram bytes a s hram, fun k => Memory.read_loadRam_last bytes a.toNat s.ram,
      fun j _ => Memory.read_loadRam_other bytes a.toNat s.ram⟩

end Sys2Proof.Machine
end

section
/-! Proofs of the reset and hazards family (70_reset_and_hazards.md): the cycles of an instruction, by its shape, reset, and the
state that construction builds. -/

namespace Sys2Proof.Machine

/-! ## The cycles of an instruction (R561 to R566) -/

/-- The extra cycles of an instruction without an operand that is no branch. -/
theorem extraCycles_of_registers {i : Instr} {s : State} (hop : operandOf? i = none) (hbr : branchOf? i s.p = none) :
    extraCycles i s = 0 := by
  simp [extraCycles, hop, hbr]

/-- The extra cycles of an instruction that only reads its operand: those of a page cross. -/
theorem extraCycles_of_load {i : Instr} {o : Operand} {s : State} (hop : operandOf? i = some o)
    (hbr : branchOf? i s.p = none) (hreads : writesAtEa i = false) :
    extraCycles i s = if i.crossPenalty && crosses o s then 1 else 0 := by
  simp [extraCycles, hop, hbr, hreads]

/-- No row of an instruction that writes at its effective address is marked `+p` (R562). -/
theorem crossPenalty_of_writesAtEa {i : Instr} (h : writesAtEa i = true) : i.crossPenalty = false := by
  cases i with
  | sta o | stx o | sty o | sax o | ahx o => cases o <;> rfl
  | inc o | dec o | asl o | lsr o | rol o | ror o => cases o <;> rfl
  | slo o | rla o | sre o | rra o | dcp o | isb o => cases o <;> rfl
  | shx base | shy base | tas base => rfl
  | _ => cases h

/-- The extra cycles of an instruction that writes at its effective address: those of an OAM DMA. -/
theorem extraCycles_of_write {i : Instr} {o : Operand} {s : State} (hop : operandOf? i = some o)
    (hbr : branchOf? i s.p = none) (hwrites : writesAtEa i = true) :
    extraCycles i s = if (ea o s).toNat = 0x4014 then s.params.dmaCycles else 0 := by
  simp [extraCycles, hop, hbr, hwrites, crossPenalty_of_writesAtEa hwrites]

/-- An accumulator form has no effective address. -/
theorem extraCycles_of_acc {i : Instr} {s : State} (hop : operandOf? i = some .acc) (hbr : branchOf? i s.p = none) :
    extraCycles i s = 0 := by
  simp [extraCycles, hop, hbr, crosses, ea, baseAddr]

/-- The extra cycles of a branch. -/
theorem extraCycles_of_branch {i : Instr} {cond : Bool} {off : Byte} {s : State} (hop : operandOf? i = none)
    (hbr : branchOf? i s.p = some (cond, off)) :
    extraCycles i s = if cond then (if s.pc.toNat / 256 = (targetOf s.pc off).toNat / 256 then 1 else 2) else 0 := by
  cases cond
  · simp [extraCycles, hop, hbr]
  · simp [extraCycles, hop, hbr]

/-- The outcome `r` of instruction `i` in `s`, where it is a next state, has charged the instruction's extra cycles. -/
def ChargesExtra (i : Instr) (s : State) (r : Host.Outcome State Fault Refusal) : Prop :=
  ∀ t, r = .next t → t.ctx.cyc = s.ctx.cyc + extraCycles i s

theorem chargesExtra_registers {i : Instr} {s t : State} (hop : operandOf? i = none) (hbr : branchOf? i s.p = none)
    (hcyc : t.ctx.cyc = s.ctx.cyc) : ChargesExtra i s (.next t) := by
  rintro _ ⟨⟩
  rw [hcyc, extraCycles_of_registers hop hbr, Nat.add_zero]

theorem chargesExtra_branch {i : Instr} {cond : Bool} {off : Byte} {s : State} (hop : operandOf? i = none)
    (hbr : branchOf? i s.p = some (cond, off)) : ChargesExtra i s (branch cond off s) := by
  intro t h
  rw [extraCycles_of_branch hop hbr]
  cases cond with
  | false => cases h; rfl
  | true => rw [branch_taken] at h; cases h; rfl

/-- What the read of an operand charges. -/
theorem cyc_afterOperand (i : Instr) (o : Operand) (s : State) :
    (afterOperand i o s).ctx.cyc = s.ctx.cyc + if i.crossPenalty && crosses o s then 1 else 0 := by
  cases o with
  | imm b => simp [afterOperand, crosses]
  | acc | zp z | zpX z | zpY z | abs w | absX w | absY w | indX z | indY z =>
    simp only [afterOperand]
    split
    · simp
    · simp

theorem chargesExtra_load {i : Instr} {o : Operand} {s : State} {k : Byte → State → State} (hop : operandOf? i = some o)
    (hbr : branchOf? i s.p = none) (hreads : writesAtEa i = false) (hk : ∀ m u, (k m u).ctx.cyc = u.ctx.cyc) :
    ChargesExtra i s (onLoad i o s k) := by
  intro t h
  unfold onLoad at h
  split at h
  · cases h
  · next m u hload =>
    cases h
    obtain ⟨-, -, rfl⟩ := load_eq_ok hload
    rw [hk, cyc_afterOperand, extraCycles_of_load hop hbr hreads]

/-- What a write charges. -/
theorem cyc_memWrite {a : Word} {v : Byte} {s t : State} (h : memWrite a v s = .ok t) :
    t.ctx.cyc = s.ctx.cyc + if a.toNat = 0x4014 then s.params.dmaCycles else 0 := by
  obtain ⟨-, hcyc, -⟩ := writeFrame a v s t h
  exact hcyc

/-- A store charges what its write does; `u` is the state it happens in. -/
theorem chargesExtra_store {i : Instr} {o : Operand} {v : Byte} {s u : State} (hop : operandOf? i = some o)
    (hbr : branchOf? i s.p = none) (hwrites : writesAtEa i = true) (hea : ea o u = ea o s)
    (hpar : u.params = s.params) (hcyc : u.ctx.cyc = s.ctx.cyc) : ChargesExtra i s (outcome (store o v u)) := by
  intro t h
  rw [extraCycles_of_write hop hbr hwrites]
  cases hstore : store o v u with
  | error e => rw [hstore] at h; cases h
  | ok w =>
    rw [hstore] at h
    cases h
    rw [cyc_memWrite (store_eq_ok hstore).2, hea, hpar, hcyc]

/-- Of an unstable store the draw charges nothing. -/
theorem chargesExtra_unstableStore {i : Instr} {o : Operand} {r : Byte} {s u : State} (hop : operandOf? i = some o)
    (hbr : branchOf? i s.p = none) (hwrites : writesAtEa i = true) (hea : ea o u = ea o s)
    (hpar : u.params = s.params) (hcyc : u.ctx.cyc = s.ctx.cyc) :
    ChargesExtra i s (unstableStore o r u) := by
  obtain ⟨hdrawPar, hdrawCtx⟩ : (unstableDraw u).params = u.params ∧ (unstableDraw u).ctx = u.ctx := by
    unfold unstableDraw
    split
    · exact ⟨rfl, rfl⟩
    · exact ⟨rfl, rfl⟩
  exact chargesExtra_store hop hbr hwrites ((ea_unstableDraw o u).trans hea) (hdrawPar.trans hpar)
    ((congrArg StepCtx.cyc hdrawCtx).trans hcyc)

/-- Of a read-modify-write the read charges nothing. -/
theorem chargesExtra_rmw {i : Instr} {o : Operand} {f : Byte → Byte} {s : State} {k : Byte → State → State}
    (hop : operandOf? i = some o) (hbr : branchOf? i s.p = none) (hwrites : o ≠ .acc → writesAtEa i = true)
    (hk : ∀ m u, (k m u).ctx.cyc = u.ctx.cyc) :
    ChargesExtra i s (onRmw o f s k) := by
  intro t h
  unfold onRmw at h
  split at h
  · cases h
  · next m u hrmw =>
    cases h
    rw [hk]
    obtain ⟨rfl, -, rfl⟩ | ⟨hres, -, -, hwrite⟩ := rmw_eq_ok hrmw
    · rw [extraCycles_of_acc hop hbr]
      rfl
    · rw [cyc_memWrite hwrite, extraCycles_of_write hop hbr (hwrites ((resolves_iff o).mp hres).1), afterRead_ctx,
        afterRead_params]

/-- An indirect jump charges nothing: both its reads keep the step context. -/
theorem chargesExtra_jmpInd (ptr : Word) (s : State) : ChargesExtra (.jmpInd ptr) s (execJmpInd ptr s) := by
  intro t h
  have hextra : extraCycles (.jmpInd ptr) s = 0 := extraCycles_of_registers rfl rfl
  by_cases hlow : ReadOk ptr s
  · by_cases hhigh : ReadOk (jmpIndHigh ptr) (afterRead ptr s)
    · cases (exec_jmpInd_of_readOk hlow hhigh).symm.trans h
      simp [hextra]
    · cases (exec_jmpInd_of_high_fault hlow hhigh).symm.trans h
  · cases (exec_jmpInd_of_low_fault hlow).symm.trans h

theorem chargesExtra_jam (code : Byte) (s : State) : ChargesExtra (.jam code) s (execJam s) := by
  unfold execJam
  split
  · exact chargesExtra_registers rfl rfl rfl
  · exact chargesExtra_registers rfl rfl rfl

theorem chargesExtra_exec (i : Instr) (s : State) : ChargesExtra i s (exec i s) := by
  cases i with
  | lda o | ldx o | ldy o | adc o | sbc o | and o | ora o | eor o | cmp o | cpx o | cpy o | bit o | lax o =>
    exact chargesExtra_load rfl rfl rfl fun _ _ => rfl
  | nopMemory code o => exact chargesExtra_load rfl rfl rfl fun _ _ => rfl
  | las base => exact chargesExtra_load rfl rfl rfl fun _ _ => rfl
  | inc o | dec o | asl o | lsr o | rol o | ror o =>
    exact chargesExtra_rmw rfl rfl (fun h => decide_eq_true h) fun _ _ => rfl
  | slo o | rla o | sre o | rra o | dcp o | isb o =>
    exact chargesExtra_rmw rfl rfl (fun _ => rfl) fun _ _ => rfl
  | sta o | stx o | sty o | sax o =>
    exact chargesExtra_store rfl rfl rfl rfl rfl rfl
  | ahx o => exact chargesExtra_unstableStore rfl rfl rfl rfl rfl rfl
  | shx base | shy base | tas base =>
    exact chargesExtra_unstableStore rfl rfl rfl rfl rfl rfl
  | bcc off | bcs off | beq off | bne off | bmi off | bpl off | bvc off | bvs off => exact chargesExtra_branch rfl rfl
  | jmpInd ptr => exact chargesExtra_jmpInd ptr s
  | jam code => exact chargesExtra_jam code s
  | tax | tay | txa | tya | tsx | txs | inx | iny | dex | dey => exact chargesExtra_registers rfl rfl rfl
  | jmp target | jsr target => exact chargesExtra_registers rfl rfl rfl
  | rts | rti | brk | pha | php | pla | plp => exact chargesExtra_registers rfl rfl rfl
  | clc | cld | cli | clv | sec | sed | sei | nop => exact chargesExtra_registers rfl rfl rfl
  | alr imm | arr imm | axs imm | sbcEB imm | xaa imm | lxa imm => exact chargesExtra_registers rfl rfl rfl
  | anc code imm | nopImmediate code imm => exact chargesExtra_registers rfl rfl rfl
  | nopImplied code => exact chargesExtra_registers rfl rfl rfl

theorem baseCharge_eq (par : Params) (i : Instr) :
    baseCharge par i = if i = .brk ∨ ((∃ code, i = .jam code) ∧ par.jamPolicy = .jam) then 0 else i.baseCycles := by
  unfold baseCharge
  split
  · simp
  · simp
  · next hbrk hjam =>
    rw [if_neg]
    rintro (h | ⟨⟨code, h⟩, -⟩)
    · exact hbrk h
    · exact hjam code h

/-- Settles O12, by the shape of the instruction. -/
theorem cyclesOfAnInstruction : Obligations.CyclesOfAnInstruction :=
  ⟨fun i s t _ h => ⟨chargesExtra_exec i s t h, (keeps_exec h).busCycles⟩, fun i par => baseCharge_eq par i⟩

/-! ## Reset (R530 to R534) -/

theorem vector_FFFC (s : State) :
    vector 0xFFFC s = BitVec.ofNat 16 (256 * (readByte 0xFFFD s).toNat + (readByte 0xFFFC s).toNat) := by
  rw [vector, w16_eq, prgByte_eq_readByte s (a := 0xFFFC) (by decide), prgByte_eq_readByte s (a := 0xFFFC + 1) (by decide)]
  rfl

/-- A read of PRG ROM has no effect and cannot fault. -/
theorem memRead_eq_readByte_of_prg {a : Word} (s : State) (h : 0x8000 ≤ a.toNat) : memRead a s = .ok (readByte a s, s) := by
  rw [memRead_of_prg s h, readByte, region_of_prg _ h]

/-- Settles O33: the vector's two reads are of PRG ROM, and the run state goes by cases. -/
theorem resetEffect : Obligations.ResetEffect := by
  intro s
  refine ⟨memRead_eq_readByte_of_prg s (by decide), memRead_eq_readByte_of_prg s (by decide), ?_⟩
  rw [hostReset, vector_FFFC]
  cases s.cpuRun with
  | running | halted | jammed | faulted info => rfl

/-! ## Construction (R535, R536) -/

theorem Memory.wfAbove_ofBytesFrom (bytes : List Byte) {n k : Nat} (h : n < k) :
    Memory.wfAbove n (Memory.ofBytesFrom k bytes) = true := by
  induction bytes generalizing n k with
  | nil => rfl
  | cons b rest ih =>
    unfold Memory.ofBytesFrom
    split
    · exact ih (by omega)
    · next hb => simp [Memory.wfAbove, h, hb, ih (Nat.lt_succ_self k)]

theorem Memory.wf_ofBytesFrom (k : Nat) (bytes : List Byte) : (Memory.ofBytesFrom k bytes).wf = true := by
  cases bytes with
  | nil => rfl
  | cons b rest =>
    have hrest := Memory.wfAbove_ofBytesFrom rest (Nat.lt_succ_self k)
    unfold Memory.ofBytesFrom
    split
    · exact Memory.wf_of_wfAbove hrest
    · next hb => simp [Memory.wf, hb, hrest]

theorem Memory.within_ofBytesFrom (bytes : List Byte) {k n : Nat} (h : k + bytes.length ≤ n) :
    Memory.within n (Memory.ofBytesFrom k bytes) = true := by
  induction bytes generalizing k with
  | nil => rfl
  | cons b rest ih =>
    rw [List.length_cons] at h
    have hrest := ih (k := k + 1) (by omega)
    unfold Memory.ofBytesFrom
    split
    · exact hrest
    · simp [Memory.within, hrest, show k < n by omega]

/-- The bytes read back, and beyond them the unlisted byte. -/
theorem Memory.read_ofBytesFrom (bytes : List Byte) (k j : Nat) :
    (Memory.ofBytesFrom k bytes).read (k + j) = bytes.getD j unlistedByte := by
  induction bytes generalizing k j with
  | nil => rfl
  | cons b rest ih =>
    unfold Memory.ofBytesFrom
    cases j with
    | zero =>
      have hrest := Memory.read_of_wfAbove (Memory.wfAbove_ofBytesFrom rest (Nat.lt_succ_self k)) (Nat.le_refl k)
      split
      · next hb => exact hrest.trans hb.symm
      · simp [Memory.read]
    | succ l =>
      have hrest : (Memory.ofBytesFrom (k + 1) rest).read (k + (l + 1)) = rest.getD l unlistedByte := by
        rw [← ih (k + 1) l, Nat.add_assoc, Nat.add_comm 1]
      split
      · exact hrest
      · simpa [Memory.read] using hrest

theorem prgSizeOf_eq_some {n : Nat} {size : PrgSize} : prgSizeOf n = some size ↔ n = size.bytes := by
  unfold prgSizeOf
  cases size with
  | k16 | k32 => split_ifs <;> simp [PrgSize.bytes, *]

/-- What construction accepts, and the state it then gives. -/
theorem construct_eq_some {cart : Cartridge} {par : Params} {init : InitMem} {handler : FrameHandler} {s : State} :
    construct cart par init handler = some s ↔
      ∃ size : PrgSize, cart.prg.length = size.bytes ∧ cart.chr.length = 8192 ∧ cart.mapper = 0 ∧
        hostReset (preReset cart size par init handler) = s := by
  simp only [← prgSizeOf_eq_some]
  unfold construct
  cases prgSizeOf cart.prg.length with
  | none => simp
  | some size => simp [and_assoc]

theorem construct_eq_none {cart : Cartridge} {par : Params} {init : InitMem} {handler : FrameHandler} :
    construct cart par init handler = none ↔
      ¬ ((cart.prg.length = 16384 ∨ cart.prg.length = 32768) ∧ cart.chr.length = 8192 ∧ cart.mapper = 0) := by
  have hsize : (∃ size : PrgSize, cart.prg.length = size.bytes) ↔ cart.prg.length = 16384 ∨ cart.prg.length = 32768 := by
    refine ⟨fun ⟨size, h⟩ => ?_, fun h => h.elim (⟨.k16, ·⟩) (⟨.k32, ·⟩)⟩
    cases size with
    | k16 => exact .inl h
    | k32 => exact .inr h
  rw [← hsize, ← not_iff_not, not_not, ← Ne, Option.ne_none_iff_exists']
  simp only [construct_eq_some]
  exact ⟨fun ⟨_, size, hprg, hchr, hmap, _⟩ => ⟨⟨size, hprg⟩, hchr, hmap⟩,
    fun ⟨⟨size, hprg⟩, hchr, hmap⟩ => ⟨_, size, hprg, hchr, hmap, rfl⟩⟩

/-- The state before the reset meets the invariant where the contents given do: PRG and CHR are made canonical. -/
theorem inv_preReset {cart : Cartridge} {size : PrgSize} {init : InitMem} (par : Params) (handler : FrameHandler)
    (hprg : cart.prg.length = size.bytes) (hchr : cart.chr.length = 8192) (hinit : init.ok = true) :
    (preReset cart size par init handler).Inv := by
  simp only [InitMem.ok, Bool.and_eq_true] at hinit
  obtain ⟨⟨⟨⟨⟨⟨⟨hram, hram'⟩, hvram⟩, hvram'⟩, hpal⟩, hpal'⟩, hoam⟩, hoam'⟩ := hinit
  exact ⟨⟨hram, hram'⟩, ⟨Memory.wf_ofBytesFrom 0 _, Memory.within_ofBytesFrom _ (Nat.zero_add _ ▸ hprg.le)⟩,
    ⟨⟨Memory.wf_ofBytesFrom 0 _, Memory.within_ofBytesFrom _ (Nat.zero_add _ ▸ hchr.le)⟩,
      ⟨hvram, hvram'⟩, ⟨hpal, hpal'⟩, ⟨hoam, hoam'⟩, Nat.zero_le _, Nat.zero_le _⟩, rfl⟩

/-- Settles O34: the reset leaves the memories and everything else construction set as they are. -/
theorem construction : Obligations.Construction := by
  intro cart par init handler
  refine ⟨construct_eq_none, fun s hs => ?_⟩
  obtain ⟨size, hprg, hchr, -, rfl⟩ := construct_eq_some.mp hs
  have hread : ∀ (bytes : List Byte) (k : Nat), (Memory.ofBytesFrom 0 bytes).read k = bytes.getD k 0 := fun bytes k => by
    have hfrom := Memory.read_ofBytesFrom bytes 0 k
    rwa [Nat.zero_add] at hfrom
  refine ⟨fun k _ => hread cart.prg k, fun k _ => hread cart.chr k, ?_, rfl, rfl, rfl, rfl, rfl,
    vector_FFFC (preReset cart size par init handler), rfl, rfl, rfl, rfl, rfl, rfl, rfl,
    inv_preReset par handler hprg hchr⟩
  rw [hprg]
  cases size with
  | k16 => exact iff_of_true rfl rfl
  | k32 => exact iff_of_false (by rintro ⟨⟩) (by decide)

end Sys2Proof.Machine
end
